-- ==== Sys2Proof/Word.lean ====
section
/-! DEFINITION. The word types of the part: bytes, the 2- and 4-byte fields of its formats, ports and port masks. -/

namespace Sys2Proof

/-- A byte on the wire, in the array or in the provisioning row. -/
abbrev Byte := BitVec 8

/-- A 2-byte field. -/
abbrev Half := BitVec 16

/-- A 4-byte field. -/
abbrev Word := BitVec 32

/-- A host port, P0 to P3 (Principal figures). -/
abbrev Port := Fin 4

/-- A handle of the View Table, 0 to 3 (R22). -/
abbrev Handle := Fin 4

/-- An entry of the Claim Table (R38). -/
abbrev ClaimIx := Fin 4

/-- A volume index, 0 to 31 (Principal figures). -/
abbrev Vol := Fin 32

/-- A port set: bit n stands for Pn (Conventions, Port sets). -/
abbrev Mask := BitVec 4

end Sys2Proof
end

