-- ==== Sys2Proof/Config.lean ====
section
/-! DEFINITION. What every DN432 fixes (Principal figures, R1, R112, R148), and the one open value of the manual. -/

namespace Sys2Proof.Config

/-- Bytes of a sector (R1). -/
def sectorBytes : Nat := 65536

/-- Bytes of a page (R1). -/
def pageBytes : Nat := 256

/-- Sectors of the array (R1). -/
def sectors : Nat := 512

/-- Bytes of the array (R1). -/
def arrayBytes : Nat := 33554432

/-- Bytes of a journal position (R112). -/
def positionBytes : Nat := 32

/-- Positions of a journal sector (R112). -/
def positions : Nat := 2048

/-- Free entries at which compaction is scheduled (R116). -/
def compactThreshold : Nat := 64

/-- Positions one record may take (R115). -/
def maxTries : Nat := 3

/-- The value at which the skipped-entry counter saturates (R112). -/
def skippedMax : Nat := 4095

/-- Entries of a response queue (R157). -/
def queueEntries : Nat := 8

/-- Records of an operation FIFO (R85). -/
def fifoEntries : Nat := 4

/-- Entries of the Claim Wait List (R45). -/
def waitEntries : Nat := 8

/-- The highest generation a volume can reach, and the highest epoch (R77, R118). -/
def wordMax : Nat := 4294967295

/-- The lease count while the row is BLANK or DAMAGED (R148). -/
def defaultLease : Nat := 50

/-- The erase-class suspend budget while the row is BLANK or DAMAGED (R148). -/
def defaultEraseBudget : Nat := 16

/-- The program-class suspend budget while the row is BLANK or DAMAGED (R148). -/
def defaultProgramBudget : Nat := 4

end Sys2Proof.Config

namespace Sys2Proof

/-- FREE VALUE (R2, log entry 8): what a byte of undefined content reads as. The arguments are the number of the cut or
fault that spoiled it, the number of power-ons since reset ("it may read differently after the next power-on") and its
address. It has no body: nothing can be proved of its value. -/
opaque Config.freeByte : Nat → Nat → Nat → BitVec 8

end Sys2Proof
end

