-- ==== Sys2Proof/Syntax.lean ====
section
/-! DEFINITION. The commands of the DN432: one constructor of `Instr` for each row of spec/opcode_table.json. -/

namespace Sys2Proof

/-- The request kinds of the table of R179, and COMPACT, which only the Journal Unit makes (R89). -/
inductive Kind where
  | queryDevice | queryVolume
  | createVolume | deleteVolume | setAccess | pin | unpin | format | provision
  | read | openView | closeView
  | claim | release | renew
  | beginStage | erase | program | readStaged | commit | rollback
  | compact
  deriving DecidableEq, Repr

/-- The part of a select period a frame command stands for (log entry 1). -/
inductive Moment where
  /-- the whole select period, with no other event inside it -/
  | whole
  /-- PnSEL is asserted: the port takes the value of the status byte (R159) -/
  | select
  /-- the first `n` bytes of the select period have been received (R157); at the first one a FETCH selects its response
  (R168) -/
  | received (n : Nat)
  /-- PnSEL is deasserted: the frame is evaluated on the whole bytes received (R156, R161) -/
  | deselect
  deriving DecidableEq, Repr

/-- How far the program under way had come when a device reset or a power loss cut it short (R126, R154; log entry 10). -/
inductive Cut where
  /-- no byte was programmed -/
  | before
  /-- some bytes were programmed and others were not -/
  | during
  /-- every byte was programmed -/
  | after
  deriving DecidableEq, Repr

/-- A SUBMIT frame of one request kind, well formed in the sense of R162: its CRC-16 matches and its length is right. Its
parameter bytes may still be too few, too many or out of range (R162, R179). -/
structure Submit where
  port   : Port
  moment : Moment
  tag    : Byte
  volume : Byte
  params : List Byte
  /-- bytes the host shifts in beyond the frame's last byte, which R161 ignores -/
  extra  : List Byte
  deriving DecidableEq, Repr

/-- What the host clocks after the kind byte of a FETCH: whole bytes, which the port ignores (R168), and the bits of a byte it
does not complete (log entry 7). -/
structure Clocked where
  bytes : List Byte
  bits  : Fin 8
  deriving DecidableEq, Repr

/-- The number of bits clocked. -/
def Clocked.length (x : Clocked) : Nat := 8 * x.bytes.length + x.bits.val

/-- The commands. A frame carries the bytes the host shifts in; `extra` are those after the kind byte of a STATUS. A `Bool`
operand of an engine event tells success (`true`) from an array fault (R107). -/
inductive Instr where
  -- frames that carry no taken request
  | statusFrame (port : Port) (moment : Moment) (extra : List Byte)
  | fetchFrame (port : Port) (moment : Moment) (clocked : Clocked)
  | unknownFrame (port : Port) (moment : Moment) (bytes : List Byte)
  | submitRejected (port : Port) (moment : Moment) (bytes : List Byte)
  -- requests
  | queryDevice (f : Submit)
  | queryVolume (f : Submit)
  | createVolume (f : Submit)
  | deleteVolume (f : Submit)
  | setAccess (f : Submit)
  | pin (f : Submit)
  | unpin (f : Submit)
  | format (f : Submit)
  | provision (f : Submit)
  | read (f : Submit)
  | openView (f : Submit)
  | closeView (f : Submit)
  | claim (f : Submit)
  | release (f : Submit)
  | renew (f : Submit)
  | beginStage (f : Submit)
  | erase (f : Submit)
  | program (f : Submit)
  | readStaged (f : Submit)
  | commit (f : Submit)
  | rollback (f : Submit)
  -- ends of engine work
  | eraseCompletion (ok : Bool)
  | programCompletion (ok : Bool)
  | commitVerifyEnd
  | createEntryCompletes
  | deleteEntryCompletes
  | accessEntryCompletes
  | pinEntryCompletes
  | unpinEntryCompletes
  | stageEntryCompletes
  | commitEntryCompletes
  | rollbackEntryCompletes
  | journalWriteFault
  | compactEraseEnd (ok : Bool)
  | snapshotEntryCompletes
  | compactSnapEndCompletes
  | formatEraseEnd (ok : Bool)
  | formatHeaderCompletes
  | formatSnapEndCompletes
  | rowWriteEnd (ok : Bool)
  -- leases and lines
  | leaseUnitEnd (entry : ClaimIx)
  | leaseExpiry (entry : ClaimIx)
  | pinenAssertion
  | pinenDeassertion
  | pnrstAssert (port : Port)
  | pnrstDeassert (port : Port)
  | resetAssert (cut : Cut)
  | resetDeassert
  | powerOn
  | powerLoss (cut : Cut)
  | startUpEnd
  deriving DecidableEq, Repr

/-- The port and the moment of a frame command; none for an event. -/
def Instr.frameOf : Instr → Option (Port × Moment)
  | .statusFrame p m _ | .fetchFrame p m _ | .unknownFrame p m _ | .submitRejected p m _ => some (p, m)
  | .queryDevice f | .queryVolume f | .createVolume f | .deleteVolume f | .setAccess f | .pin f | .unpin f
  | .format f | .provision f | .read f | .openView f | .closeView f | .claim f | .release f | .renew f
  | .beginStage f | .erase f | .program f | .readStaged f | .commit f | .rollback f => some (f.port, f.moment)
  | .eraseCompletion _ | .programCompletion _ | .commitVerifyEnd | .createEntryCompletes | .deleteEntryCompletes
  | .accessEntryCompletes | .pinEntryCompletes | .unpinEntryCompletes | .stageEntryCompletes
  | .commitEntryCompletes | .rollbackEntryCompletes | .journalWriteFault | .compactEraseEnd _
  | .snapshotEntryCompletes | .compactSnapEndCompletes | .formatEraseEnd _ | .formatHeaderCompletes
  | .formatSnapEndCompletes | .rowWriteEnd _ | .leaseUnitEnd _ | .leaseExpiry _ | .pinenAssertion
  | .pinenDeassertion | .pnrstAssert _ | .pnrstDeassert _ | .resetAssert _ | .resetDeassert | .powerOn
  | .powerLoss _ | .startUpEnd => none

/-- The request kind and frame of a request command; none for every other command. -/
def Instr.requestOf : Instr → Option (Kind × Submit)
  | .queryDevice f => some (.queryDevice, f)
  | .queryVolume f => some (.queryVolume, f)
  | .createVolume f => some (.createVolume, f)
  | .deleteVolume f => some (.deleteVolume, f)
  | .setAccess f => some (.setAccess, f)
  | .pin f => some (.pin, f)
  | .unpin f => some (.unpin, f)
  | .format f => some (.format, f)
  | .provision f => some (.provision, f)
  | .read f => some (.read, f)
  | .openView f => some (.openView, f)
  | .closeView f => some (.closeView, f)
  | .claim f => some (.claim, f)
  | .release f => some (.release, f)
  | .renew f => some (.renew, f)
  | .beginStage f => some (.beginStage, f)
  | .erase f => some (.erase, f)
  | .program f => some (.program, f)
  | .readStaged f => some (.readStaged, f)
  | .commit f => some (.commit, f)
  | .rollback f => some (.rollback, f)
  | .statusFrame _ _ _ | .fetchFrame _ _ _ | .unknownFrame _ _ _ | .submitRejected _ _ _ => none
  | .eraseCompletion _ | .programCompletion _ | .commitVerifyEnd | .createEntryCompletes | .deleteEntryCompletes
  | .accessEntryCompletes | .pinEntryCompletes | .unpinEntryCompletes | .stageEntryCompletes
  | .commitEntryCompletes | .rollbackEntryCompletes | .journalWriteFault | .compactEraseEnd _
  | .snapshotEntryCompletes | .compactSnapEndCompletes | .formatEraseEnd _ | .formatHeaderCompletes
  | .formatSnapEndCompletes | .rowWriteEnd _ | .leaseUnitEnd _ | .leaseExpiry _ | .pinenAssertion
  | .pinenDeassertion | .pnrstAssert _ | .pnrstDeassert _ | .resetAssert _ | .resetDeassert | .powerOn
  | .powerLoss _ | .startUpEnd => none

end Sys2Proof
end

