-- ==== Sys2Proof/Machine/State.lean ====
section
/-! DEFINITION. The state of the part as plain data, its fault and refusal reasons, and the state after reset. -/

namespace Sys2Proof.Machine

/-- Why the model stops. -/
inductive Fault where
  /-- Raised by a read, an erase, a program, a verify or a journal write that resolves beyond the 512 sectors of R1, or
  beyond the 2,048 positions of a journal sector (R112). Safe: the manual gives no such place, and no state a run reaches
  makes such an access (log entry 18). -/
  | outsideArray
  deriving DecidableEq, Repr

/-- Why the model refuses a command. -/
inductive Refusal where
  /-- Raised by `exec` for a row that has no meaning yet. Safe. -/
  | notModelled (mnemonic : String)
  deriving DecidableEq, Repr

/-! ### Host ports -/

/-- The device mode (R112). -/
inductive Mode where
  | starting | unformatted | normal | degraded
  deriving DecidableEq, Repr

/-- The outcome of the last SUBMIT frame (R157). -/
inductive FrameOutcome where
  | none | taken | full | rejected
  deriving DecidableEq, Repr

/-- The response statuses of R180. -/
inductive Status where
  | ok | done | data | view | claimed | queued | granted | released | withdrawn
  | retry | busy | cancelled | expired | revoked | gone
  | badRequest | mode | degraded | denied | frozen
  | noVolume | inUse | noSpace | pinned | noImage | range | noView | viewFull
  | alreadyHeld | alreadyWaiting | claimHeld | tableFull | waitFull | notClaimed
  | noStaging | notErased | outOfOrder | stagingOpen | slotHeld | noPrevious | genLimit | incomplete | checkFailed
  | arrayFault
  deriving DecidableEq, Repr

/-- A response: tag, request code, status and body (R167, R180). The body is held as the bytes R180 lays out. -/
structure Response where
  tag    : Byte
  kind   : Kind
  status : Status
  body   : List Byte
  deriving DecidableEq, Repr

/-- The frame in progress (R157): the status byte taken at its start (R159), the bytes received so far, and for a FETCH the
response selected (none where the queue was empty). -/
structure Frame where
  status   : Byte
  bytes    : List Byte
  selected : Option Response
  deriving DecidableEq, Repr

/-- What one Host Port Interface holds (R157). -/
structure Hpi where
  queue   : List Response
  outcome : FrameOutcome
  frame   : Option Frame
  /-- PnRST is asserted (R171) -/
  rst     : Bool
  /-- PnSEL is asserted (R156) -/
  sel     : Bool
  /-- the bytes shifted out on PnSDO in the last finished frame (log entry 20) -/
  sdo     : List Byte
  deriving DecidableEq, Repr

/-! ### Volume Directory and View Table -/

/-- Slot A or slot B. -/
inductive Slot where
  | a | b
  deriving DecidableEq, Repr

/-- The five slot states (R5). -/
inductive SlotState where
  | empty | staging | active | previous | stale
  deriving DecidableEq, Repr

/-- The image fields of a slot (R5). -/
structure Image where
  gen : Nat
  len : Nat
  crc : Word
  deriving DecidableEq, Repr

/-- One slot of a volume (R5). -/
structure SlotRec where
  state : SlotState
  image : Option Image
  deriving DecidableEq, Repr

/-- An in-use volume record (R4, R6). The claim reference and the view counts are computed (log entry 14). -/
structure Volume where
  label      : Half
  size       : Nat
  baseA      : Nat
  baseB      : Nat
  readers    : Mask
  writers    : Mask
  pinned     : Bool
  genCounter : Nat
  slotA      : SlotRec
  slotB      : SlotRec
  deleting   : Bool
  deriving DecidableEq, Repr

/-- The 32 records; an absent one is not in use. -/
abbrev Directory := Vector (Option Volume) 32

/-- An open View Table entry (R22). -/
structure View where
  vol  : Vol
  slot : Slot
  gen  : Nat
  len  : Nat
  deriving DecidableEq, Repr

/-! ### Claim Unit -/

/-- The state of a claim (R38). -/
inductive ClaimState where
  | held | revoking
  deriving DecidableEq, Repr

/-- What the part knows of a sector of the staging slot (R63). -/
inductive SectorState where
  | unknown | erased | programmed
  deriving DecidableEq, Repr

/-- An entry of a staging map: sector state (PARTIAL is `programmed`) and program pointer (R63). -/
structure MapEntry where
  state : SectorState
  ptr   : Nat
  deriving DecidableEq, Repr

/-- An in-use Claim Table entry (R38). Its notice reservation is held exactly while it is HELD. -/
structure Claim where
  vol     : Vol
  holder  : Port
  state   : ClaimState
  tag     : Byte
  lease   : Nat
  pending : Nat
  map     : Option (List MapEntry)
  deriving DecidableEq, Repr

/-- An entry of the Claim Wait List (R45), with its two reservations. -/
structure Waiter where
  port : Port
  vol  : Vol
  tag  : Byte
  deriving DecidableEq, Repr

/-! ### Operations, journal records and the engine -/

/-- An operation record (R85). -/
structure Op where
  tag    : Byte
  kind   : Kind
  vol    : Option Vol
  params : List Byte
  data   : List Byte
  claim  : Option ClaimIx
  deriving DecidableEq, Repr

/-- The two journal sectors (R1). -/
inductive JSector where
  | j0 | j1
  deriving DecidableEq, Repr

/-- A phase and the place it works on (R94 to R98). -/
inductive Phase where
  | none
  | erasing (sector : Nat)
  | programming (sector page : Nat)
  | verifying
  | journaling (sector : JSector)
  | rowWriting
  deriving DecidableEq, Repr

/-- The content of a journal entry by kind (R113, R182), each field as its bytes hold it. -/
inductive JRecord where
  | header (epoch : Word)
  | create (vol : Byte) (label : Half) (size : Byte) (baseA baseB : Half) (readers writers : Byte)
  | delete (vol : Byte)
  | access (vol : Byte) (readers writers : Byte)
  | pin (vol : Byte)
  | unpin (vol : Byte)
  | stage (vol : Byte) (slot : Byte)
  | commit (vol : Byte) (slot : Byte) (gen len crc : Word)
  | rollback (vol : Byte)
  | snapVol (vol : Byte) (label : Half) (size : Byte) (baseA baseB : Half) (readers writers : Byte)
      (pinned : Byte) (gen : Word)
  | snapSlot (vol : Byte) (slot state : Byte) (gen len crc : Word)
  | snapEnd (count : Half)
  deriving DecidableEq, Repr

/-- A journal entry without its CRC-32, which R182 computes from the rest. -/
structure JEntry where
  seq     : Word
  content : JRecord
  deriving DecidableEq, Repr

/-- What a COMPACT or a FORMAT still has to write after the entry under program (R118, R133). -/
inductive SnapItem where
  | vol (v : Vol)
  | slot (v : Vol) (s : Slot)
  | fin
  deriving DecidableEq, Repr

/-- The count a COMPACT or a FORMAT keeps of its own sector (R117, R133): the position and the sequence number of the entry
under program, the entries completed so far, the epoch of its HEADER, and the rest of the snapshot. -/
structure OwnSector where
  pos     : Nat
  seq     : Nat
  written : Nat
  epoch   : Nat
  todo    : List SnapItem
  deriving DecidableEq, Repr

/-- The operation in flight (R92) and, in JOURNALING, the entry under program and the positions it has failed on (R115). -/
structure InFlight where
  /-- none for an internal COMPACT -/
  port          : Option Port
  op            : Op
  phase         : Phase
  suspends      : Nat
  eraseBudget   : Nat
  programBudget : Nat
  discard       : Bool
  entry         : Option JEntry
  tries         : Nat
  own           : Option OwnSector
  deriving DecidableEq, Repr

/-! ### Array, Journal Unit, provisioning row -/

/-- A stretch of undefined content, from `lo` up to but not including `hi` (R2; the MODEL's own, log entry 8). -/
structure Area where
  lo   : Nat
  hi   : Nat
  draw : Nat
  deriving DecidableEq, Repr

/-- The array (R1). An address in no cell and no area reads 0xFF (log entry 4). `draws` numbers the areas made so far and
`powerOns` the power-ons (the MODEL's own, log entry 8). -/
structure Store where
  cells    : List Host.Cell
  spoiled  : List Area
  draws    : Nat
  powerOns : Nat
  deriving DecidableEq, Repr

/-- The Journal Unit's place in the current sector (R112). -/
structure Journal where
  sector : JSector
  epoch  : Nat
  append : Nat
  seq    : Nat
  deriving DecidableEq, Repr

/-- The stored provisioning row (R183), or a row whose write failed or was cut short between its first and its last byte,
which derives DAMAGED whatever its bytes are (R153, R154, log entry 24). -/
inductive Row where
  | bytes (admin lease erase program : Byte) (crc : Word)
  | torn
  deriving DecidableEq, Repr

/-- The provisioning state (R146). -/
inductive ProvState where
  | blank | frozen | damaged
  deriving DecidableEq, Repr

/-- The values in force (R148). -/
structure Values where
  admin         : Mask
  lease         : Nat
  eraseBudget   : Nat
  programBudget : Nat
  deriving DecidableEq, Repr

end Sys2Proof.Machine

namespace Sys2Proof.Machine

/-- The whole part. INVENTORY.md names the rule behind each field. -/
@[ext]
structure State where
  /-- power is applied -/
  powered     : Bool
  /-- RESET is asserted (R174) -/
  resetLine   : Bool
  /-- PINEN is asserted (R135) -/
  pinen       : Bool
  hpi         : Vector Hpi 4
  vols        : Directory
  views       : Vector (Vector (Option View) 4) 4
  claims      : Vector (Option Claim) 4
  waits       : List Waiter
  fifos       : Vector (List Op) 4
  /-- the compaction slot holds a COMPACT (R89) -/
  compactSlot : Bool
  /-- the round-robin pointer (R91) -/
  rr          : Port
  engine      : Option InFlight
  store       : Store
  mode        : Mode
  /-- current sector, epoch, append point and sequence counter; none where R112 gives them no value -/
  journal     : Option Journal
  skipped     : Nat
  row         : Row
  prov        : ProvState
  values      : Values
  /-- the MODEL's own: the commands that wait, first in first out -/
  pending     : List Instr
  deriving DecidableEq, Repr

/-- A port after power-on, RESET or PnRST (R157), with its PnRST and PnSEL lines at the given levels. -/
def Hpi.cleared (rst sel : Bool) : Hpi :=
  { queue := [], outcome := .none, frame := none, rst := rst, sel := sel, sdo := [] }

/-- The values in force while the row is BLANK (R148). -/
def Values.blank : Values :=
  { admin := 0xF, lease := Config.defaultLease, eraseBudget := Config.defaultEraseBudget,
    programBudget := Config.defaultProgramBudget }

/-- The part right after reset: start-up under way (STARTING, R121), every volatile item at the value its chapter gives
(R7, R23, R59, R88, R112, R157), and the array and the row as a new part has them (log entries 3 to 6). -/
def State.reset : State :=
  { powered := true
    resetLine := false
    pinen := false
    hpi := Vector.replicate 4 (Hpi.cleared false false)
    vols := Vector.replicate 32 none
    views := Vector.replicate 4 (Vector.replicate 4 none)
    claims := Vector.replicate 4 none
    waits := []
    fifos := Vector.replicate 4 []
    compactSlot := false
    rr := 3
    engine := none
    store := { cells := [], spoiled := [], draws := 0, powerOns := 0 }
    mode := .starting
    journal := none
    skipped := 0
    row := .bytes 0xFF 0xFF 0xFF 0xFF 0xFFFFFFFF
    prov := .blank
    values := Values.blank
    pending := [] }

end Sys2Proof.Machine
end

