-- ==== Sys2Proof/Machine/Formats.lean ====
section
/-! DEFINITION. Frame and Record Formats (R177 to R183): check codes, code values, and the byte layouts of frames,
responses, journal entries and the provisioning row. Every multi-byte field is big-endian. -/

namespace Sys2Proof.Machine

/-! ### Big-endian fields -/

/-- The two bytes of a field, most significant first. -/
def be16 (h : Half) : List Byte := [h.extractLsb' 8 8, h.extractLsb' 0 8]

/-- The four bytes of a field, most significant first. -/
def be32 (w : Word) : List Byte :=
  [w.extractLsb' 24 8, w.extractLsb' 16 8, w.extractLsb' 8 8, w.extractLsb' 0 8]

/-- One byte of a number. -/
def byteOf (n : Nat) : Byte := BitVec.ofNat 8 n

/-- A number as a 2-byte field. -/
def half (n : Nat) : List Byte := be16 (BitVec.ofNat 16 n)

/-- A number as a 4-byte field. -/
def word (n : Nat) : List Byte := be32 (BitVec.ofNat 32 n)

/-- The byte at offset `i`, 0x00 beyond the end. -/
def byteAt (bs : List Byte) (i : Nat) : Byte := bs.getD i 0

/-- The 2-byte field at offset `i`. -/
def halfAt (bs : List Byte) (i : Nat) : Half := byteAt bs i ++ byteAt bs (i + 1)

/-- The 4-byte field at offset `i`. -/
def wordAt (bs : List Byte) (i : Nat) : Word := halfAt bs i ++ halfAt bs (i + 2)

/-! ### Check codes (R177) -/

/-- `f` applied `n` times. -/
def iter {α : Type} (f : α → α) : Nat → α → α
  | 0, x => x
  | n + 1, x => iter f n (f x)

/-- One bit of the CRC-16, polynomial 0x1021, not reflected. -/
def crc16Bit (c : Half) : Half := if c.msb then (c <<< 1) ^^^ 0x1021 else c <<< 1

/-- One byte of the CRC-16. -/
def crc16Byte (c : Half) (b : Byte) : Half := iter crc16Bit 8 (c ^^^ (b.setWidth 16 <<< 8))

/-- CRC-16 of R177: initial value 0xFFFF, no final exclusive-or. -/
def crc16 (bs : List Byte) : Half := bs.foldl crc16Byte 0xFFFF

/-- One bit of the CRC-32 with input and result reflected: 0xEDB88320 is 0x04C11DB7 with its 32 bits reversed. -/
def crc32Bit (c : Word) : Word := if c.getLsbD 0 then (c >>> 1) ^^^ 0xEDB88320 else c >>> 1

/-- One byte of the CRC-32. -/
def crc32Byte (c : Word) (b : Byte) : Word := iter crc32Bit 8 (c ^^^ b.setWidth 32)

/-- CRC-32 of R177: initial value and final exclusive-or 0xFFFFFFFF. -/
def crc32 (bs : List Byte) : Word := bs.foldl crc32Byte 0xFFFFFFFF ^^^ 0xFFFFFFFF

/-! ### Code values -/

/-- The device mode in bits 7-6 of the status byte (R178). -/
def modeCode : Mode → BitVec 2
  | .starting => 0
  | .unformatted => 1
  | .normal => 2
  | .degraded => 3

/-- The last outcome in bits 5-4 of the status byte (R178). -/
def outcomeCode : FrameOutcome → BitVec 2
  | .none => 0
  | .taken => 1
  | .full => 2
  | .rejected => 3

/-- The status byte of R178. -/
def packStatus (m : Mode) (o : FrameOutcome) (held : Nat) : Byte :=
  modeCode m ++ outcomeCode o ++ BitVec.ofNat 4 held

/-- The kind bytes of R178. -/
def statusKind : Byte := 0x00
/-- The kind byte of a SUBMIT frame (R178). -/
def submitKind : Byte := 0x01
/-- The kind byte of a FETCH frame (R178). -/
def fetchKind : Byte := 0x02

/-- The request codes of R179. -/
def kindCode : Kind → Byte
  | .queryDevice => 0x01
  | .queryVolume => 0x02
  | .createVolume => 0x10
  | .deleteVolume => 0x11
  | .setAccess => 0x12
  | .pin => 0x13
  | .unpin => 0x14
  | .format => 0x15
  | .provision => 0x16
  | .read => 0x20
  | .openView => 0x21
  | .closeView => 0x22
  | .claim => 0x30
  | .release => 0x31
  | .renew => 0x32
  | .beginStage => 0x40
  | .erase => 0x41
  | .program => 0x42
  | .readStaged => 0x43
  | .commit => 0x44
  | .rollback => 0x45
  | .compact => 0x7F

/-- The request kinds a host may send (R179). -/
def hostKinds : List Kind :=
  [.queryDevice, .queryVolume, .createVolume, .deleteVolume, .setAccess, .pin, .unpin, .format, .provision,
   .read, .openView, .closeView, .claim, .release, .renew, .beginStage, .erase, .program, .readStaged, .commit,
   .rollback]

/-- The request a code names; none for a code that R179 does not list as accepted from a host. -/
def kindOfCode (b : Byte) : Option Kind := hostKinds.find? (fun k => kindCode k == b)

/-- The parameter bytes a kind uses (the column n of R179). PROGRAM uses 6 and its data. -/
def paramSize : Kind → Nat
  | .createVolume => 5
  | .setAccess => 2
  | .provision => 4
  | .read => 7
  | .closeView => 1
  | .claim => 1
  | .erase => 1
  | .program => 6
  | .readStaged => 6
  | .commit => 8
  | .queryDevice | .queryVolume | .deleteVolume | .pin | .unpin | .format | .openView | .release | .renew
  | .beginStage | .rollback | .compact => 0

/-- The status codes of R180. -/
def statusCode : Status → Byte
  | .ok => 0x00
  | .done => 0x01
  | .data => 0x02
  | .view => 0x03
  | .claimed => 0x04
  | .queued => 0x05
  | .granted => 0x06
  | .released => 0x07
  | .withdrawn => 0x08
  | .retry => 0x10
  | .busy => 0x11
  | .cancelled => 0x20
  | .expired => 0x21
  | .revoked => 0x22
  | .gone => 0x23
  | .badRequest => 0x30
  | .mode => 0x31
  | .degraded => 0x32
  | .denied => 0x33
  | .frozen => 0x34
  | .noVolume => 0x40
  | .inUse => 0x41
  | .noSpace => 0x42
  | .pinned => 0x43
  | .noImage => 0x44
  | .range => 0x45
  | .noView => 0x46
  | .viewFull => 0x47
  | .alreadyHeld => 0x50
  | .alreadyWaiting => 0x51
  | .claimHeld => 0x52
  | .tableFull => 0x53
  | .waitFull => 0x54
  | .notClaimed => 0x55
  | .noStaging => 0x60
  | .notErased => 0x61
  | .outOfOrder => 0x62
  | .stagingOpen => 0x63
  | .slotHeld => 0x64
  | .noPrevious => 0x65
  | .genLimit => 0x66
  | .incomplete => 0x67
  | .checkFailed => 0x68
  | .arrayFault => 0x70

/-- 0 for A and 1 for B (section 10.4). -/
def slotCode : Slot → Byte
  | .a => 0
  | .b => 1

/-- The slot a byte names (section 10.4). -/
def slotOfCode (b : Byte) : Option Slot :=
  if b = 0 then some .a else if b = 1 then some .b else none

/-- The slot state codes of section 10.4. -/
def slotStateCode : SlotState → Byte
  | .empty => 0
  | .staging => 1
  | .active => 2
  | .previous => 3
  | .stale => 4

/-- The slot state a byte names; none above 4 (R182). -/
def slotStateOfCode (b : Byte) : Option SlotState :=
  if b = 0 then some .empty else if b = 1 then some .staging else if b = 2 then some .active
  else if b = 3 then some .previous else if b = 4 then some .stale else none

/-- 1 HELD, 2 REVOKING, 0 none (section 10.4). -/
def claimStateCode : Option ClaimState → Byte
  | none => 0
  | some .held => 1
  | some .revoking => 2

/-- The phase codes of the device report (section 10.5). -/
def phaseCode : Phase → Byte
  | .none => 0
  | .erasing _ => 1
  | .programming _ _ => 2
  | .verifying => 3
  | .journaling _ => 4
  | .rowWriting => 5

/-- The provisioning state codes of the device report (section 10.5). -/
def provCode : ProvState → Byte
  | .blank => 0
  | .frozen => 1
  | .damaged => 2

/-- 0 none, 1 J0, 2 J1 (section 10.5). -/
def jsectorCode : Option JSector → Byte
  | none => 0
  | some .j0 => 1
  | some .j1 => 2

/-! ### Responses (R180) -/

/-- The bytes a FETCH shifts out for a response, from the second byte of its frame: length, tag, request code, status code,
body and CRC-16. -/
def responseBytes (r : Response) : List Byte :=
  let front := half (r.body.length + 5) ++ [r.tag, kindCode r.kind, statusCode r.status] ++ r.body
  front ++ be16 (crc16 front)

/-- Body of DATA. -/
def dataBody (gen : Nat) (slot : Slot) (bytes : List Byte) : List Byte :=
  word gen ++ [slotCode slot] ++ half bytes.length ++ bytes

/-- Body of VIEW. -/
def viewBody (h : Handle) (slot : Slot) (i : Image) : List Byte :=
  [byteOf h.val, slotCode slot] ++ word i.gen ++ word i.len ++ be32 i.crc

/-! ### Journal entries (R182) -/

/-- The kind code of a record (R182). -/
def recordCode : JRecord → Byte
  | .header _ => 0x01
  | .create .. => 0x02
  | .delete _ => 0x03
  | .access .. => 0x04
  | .pin _ => 0x05
  | .unpin _ => 0x06
  | .stage .. => 0x07
  | .commit .. => 0x08
  | .rollback _ => 0x09
  | .snapVol .. => 0x0A
  | .snapSlot .. => 0x0B
  | .snapEnd _ => 0x0C

/-- The volume index byte: 0 for HEADER and SNAP_END (R182). -/
def recordVol : JRecord → Byte
  | .header _ => 0
  | .create v .. => v
  | .delete v => v
  | .access v .. => v
  | .pin v => v
  | .unpin v => v
  | .stage v _ => v
  | .commit v .. => v
  | .rollback v => v
  | .snapVol v .. => v
  | .snapSlot v .. => v
  | .snapEnd _ => 0

/-- The body fields of a record in the order of R182, without the unused bytes. -/
def recordBody : JRecord → List Byte
  | .header epoch => be32 epoch
  | .create _ label size a b r w => be16 label ++ [size] ++ be16 a ++ be16 b ++ [r, w]
  | .delete _ => []
  | .access _ r w => [r, w]
  | .pin _ => []
  | .unpin _ => []
  | .stage _ slot => [slot]
  | .commit _ slot gen len crc => [slot] ++ be32 gen ++ be32 len ++ be32 crc
  | .rollback _ => []
  | .snapVol _ label size a b r w pinned gen =>
      be16 label ++ [size] ++ be16 a ++ be16 b ++ [r, w, pinned] ++ be32 gen
  | .snapSlot _ slot state gen len crc => [slot, state] ++ be32 gen ++ be32 len ++ be32 crc
  | .snapEnd count => be16 count

/-- Bytes 0 to 27 of an entry: kind, sequence number, volume index, and the body filled up with 0x00 to 22 bytes. -/
def entryFront (e : JEntry) : List Byte :=
  let body := recordBody e.content
  [recordCode e.content] ++ be32 e.seq ++ [recordVol e.content] ++ body ++ List.replicate (22 - body.length) 0

/-- The 32 bytes of an entry, its CRC-32 last. -/
def entryBytes (e : JEntry) : List Byte := entryFront e ++ be32 (crc32 (entryFront e))

/-- The record that 32 bytes hold by their kind code; none for a code outside 0x01 to 0x0C (R182). -/
def recordOf (bs : List Byte) : Option JRecord :=
  let v := byteAt bs 5
  match (byteAt bs 0).toNat with
  | 1 => some (.header (wordAt bs 6))
  | 2 => some (.create v (halfAt bs 6) (byteAt bs 8) (halfAt bs 9) (halfAt bs 11) (byteAt bs 13) (byteAt bs 14))
  | 3 => some (.delete v)
  | 4 => some (.access v (byteAt bs 6) (byteAt bs 7))
  | 5 => some (.pin v)
  | 6 => some (.unpin v)
  | 7 => some (.stage v (byteAt bs 6))
  | 8 => some (.commit v (byteAt bs 6) (wordAt bs 7) (wordAt bs 11) (wordAt bs 15))
  | 9 => some (.rollback v)
  | 10 => some (.snapVol v (halfAt bs 6) (byteAt bs 8) (halfAt bs 9) (halfAt bs 11) (byteAt bs 13) (byteAt bs 14)
      (byteAt bs 15) (wordAt bs 16))
  | 11 => some (.snapSlot v (byteAt bs 6) (byteAt bs 7) (wordAt bs 8) (wordAt bs 12) (wordAt bs 16))
  | 12 => some (.snapEnd (halfAt bs 6))
  | _ => none

/-- The entry that the 32 bytes of a position hold: its CRC-32 must match and its kind code must be one of the twelve
(R113). The order of sequence numbers is judged in `classify`. -/
def entryOf (bs : List Byte) : Option JEntry :=
  if bs.length = Config.positionBytes ∧ wordAt bs 28 = crc32 (bs.take 28) then
    (recordOf bs).map (fun r => { seq := wordAt bs 1, content := r })
  else none

/-! ### Provisioning row (R183) -/

/-- The row a PROVISION writes: its four parameters and their CRC-32. -/
def rowOf (admin lease erase program : Byte) : Row :=
  .bytes admin lease erase program (crc32 [admin, lease, erase, program])

/-- The derivation of R147 and R183. -/
def deriveProv : Row → ProvState
  | .torn => .damaged
  | .bytes admin lease erase program crc =>
      if admin = 0xFF ∧ lease = 0xFF ∧ erase = 0xFF ∧ program = 0xFF ∧ crc = 0xFFFFFFFF then .blank
      else if crc = crc32 [admin, lease, erase, program] ∧ 1 ≤ admin.toNat ∧ admin.toNat ≤ 15 ∧ 1 ≤ lease.toNat
          ∧ erase.toNat ≤ 16 ∧ program.toNat ≤ 4 then .frozen
      else .damaged

/-- The values in force that follow from a provisioning state and the row (R148). -/
def valuesOf (p : ProvState) (r : Row) : Values :=
  match p, r with
  | .frozen, .bytes admin lease erase program _ =>
      { admin := admin.setWidth 4, lease := lease.toNat, eraseBudget := erase.toNat, programBudget := program.toNat }
  | .damaged, _ => { Values.blank with admin := 0 }
  | .frozen, .torn => Values.blank
  | .blank, _ => Values.blank

end Sys2Proof.Machine
end

