-- ==== Sys2Proof/Machine/Store.lean ====
section
/-! DEFINITION. The array (R1, R2): reading, programming, erasing, and the undefined content that a cut or a failed erase or
program leaves. Sector n is bytes n × 65,536 onward. -/

namespace Sys2Proof.Machine

/-- What an unlisted byte reads as: the erased value (log entry 4). -/
def erasedByte : Byte := 0xFF

/-- The first byte of a sector. -/
def sectorBase (sector : Nat) : Nat := sector * Config.sectorBytes

/-- The plane of a sector (R1). -/
def planeOf (sector : Nat) : Nat := if sector < 256 then 0 else 1

/-- J0 is sector 0 and J1 is sector 256 (R1). -/
def jsectorNumber : JSector → Nat
  | .j0 => 0
  | .j1 => 256

/-- The first byte of position `k` of a journal sector (R112). -/
def positionBase (j : JSector) (k : Nat) : Nat := sectorBase (jsectorNumber j) + k * Config.positionBytes

/-- The listed byte at an address. -/
def cellAt (cells : List Host.Cell) (a : Nat) : Option Byte := (cells.find? (fun c => c.1 == a)).map Prod.snd

/-- An area holds an address. -/
def Area.holds (x : Area) (a : Nat) : Bool := x.lo ≤ a && a < x.hi

/-- An area meets the bytes from `lo` up to `hi`. -/
def Area.meets (x : Area) (lo hi : Nat) : Bool := x.lo < hi && lo < x.hi

/-- ONE BYTE of the array: undefined content reads as a free value (R2), listed content as listed, all else as erased. -/
def Store.read (st : Store) (a : Nat) : Byte :=
  match st.spoiled.find? (fun x => x.holds a) with
  | some x => Config.freeByte x.draw st.powerOns a
  | none => (cellAt st.cells a).getD erasedByte

/-- The part of the store that bears on the bytes from `lo` up to `hi`. -/
def Store.within (st : Store) (lo hi : Nat) : Store :=
  { st with cells := st.cells.filter (fun c => lo ≤ c.1 && c.1 < hi)
            spoiled := st.spoiled.filter (fun x => x.meets lo hi) }

/-- `n` bytes from `lo` on, in address order. -/
def Store.readBytes (st : Store) (lo n : Nat) : List Byte :=
  let near := st.within lo (lo + n)
  (List.range n).map (fun i => near.read (lo + i))

/-- The cells that hold `bs` from `a` on; a byte that reads as erased is not listed. -/
def cellsFrom : Nat → List Byte → List Host.Cell
  | _, [] => []
  | a, b :: bs => if b = erasedByte then cellsFrom (a + 1) bs else (a, b) :: cellsFrom (a + 1) bs

/-- What remains of an area outside the bytes from `lo` up to `hi`. -/
def Area.outside (x : Area) (lo hi : Nat) : List Area :=
  if x.meets lo hi then
    (if x.lo < lo then [{ x with hi := lo }] else []) ++ (if hi < x.hi then [{ x with lo := hi }] else [])
  else [x]

/-- The areas outside the bytes from `lo` up to `hi`. -/
def areasOutside (xs : List Area) (lo hi : Nat) : List Area := xs.flatMap (fun x => x.outside lo hi)

/-- A program that succeeds: the bytes from `lo` on take the values given and every other byte stays (R1). -/
def Store.program (st : Store) (lo : Nat) (bs : List Byte) : Store :=
  let hi := lo + bs.length
  { st with
    cells := st.cells.filter (fun c => c.1 < lo) ++ cellsFrom lo bs ++ st.cells.filter (fun c => hi ≤ c.1)
    spoiled := areasOutside st.spoiled lo hi }

/-- An erase that succeeds sets every byte of the sector to 0xFF (R1, R94). -/
def Store.eraseSector (st : Store) (sector : Nat) : Store :=
  let lo := sectorBase sector
  let hi := lo + Config.sectorBytes
  { st with
    cells := st.cells.filter (fun c => c.1 < lo) ++ st.cells.filter (fun c => hi ≤ c.1)
    spoiled := areasOutside st.spoiled lo hi }

/-- Undefined content from `lo` for `n` bytes: what a cut or an array fault leaves (R2). A stretch beyond the array does not
exist and is not spoiled. -/
def Store.spoil (st : Store) (lo n : Nat) : Store :=
  let hi := lo + n
  if 0 < n ∧ hi ≤ Config.arrayBytes then
    { st with
      cells := st.cells.filter (fun c => c.1 < lo) ++ st.cells.filter (fun c => hi ≤ c.1)
      spoiled := (areasOutside st.spoiled lo hi).filter (fun x => x.hi ≤ lo) ++ [{ lo := lo, hi := hi, draw := st.draws }]
        ++ (areasOutside st.spoiled lo hi).filter (fun x => hi ≤ x.lo)
      draws := st.draws + 1 }
  else st

/-- A sector whose erase was cut short or failed (R2). -/
def Store.spoilSector (st : Store) (sector : Nat) : Store := st.spoil (sectorBase sector) Config.sectorBytes

/-- A page whose program was cut short or failed (R2). -/
def Store.spoilPage (st : Store) (sector page : Nat) : Store :=
  st.spoil (sectorBase sector + page * Config.pageBytes) Config.pageBytes

/-- A journal position whose program was cut short or failed (R2). -/
def Store.spoilPosition (st : Store) (j : JSector) (k : Nat) : Store :=
  st.spoil (positionBase j k) Config.positionBytes

/-- Strictly rising addresses. -/
def cellsRising : List Host.Cell → Bool
  | [] => true
  | [_] => true
  | c :: d :: rest => c.1 < d.1 && cellsRising (d :: rest)

/-- Areas that are not empty, rise and do not overlap. -/
def areasRising : List Area → Bool
  | [] => true
  | [x] => x.lo < x.hi
  | x :: y :: rest => x.lo < x.hi && x.hi ≤ y.lo && areasRising (y :: rest)

/-- The canonical form: cells rise, none reads as an unlisted byte, none lies in an area, areas rise, and everything lies in
the array. Stores of one content are then equal data, but for the numbers of their areas. -/
def Store.wf (st : Store) : Bool :=
  cellsRising st.cells && areasRising st.spoiled
    && st.cells.all (fun c => c.2 != erasedByte && c.1 < Config.arrayBytes && st.spoiled.all (fun x => !x.holds c.1))
    && st.spoiled.all (fun x => x.hi ≤ Config.arrayBytes)

end Sys2Proof.Machine
end

