-- ==== Sys2Proof/Machine/Directory.lean ====
section
/-! DEFINITION. The Volume Directory (R3 to R14): slots and their transitions, placement, and the effect of each journal
record on the directory, which the running part and replay share (R8, R124). -/

namespace Sys2Proof.Machine

/-- The volume a byte names; none above 31. -/
def volIndex (b : Byte) : Option Vol := if h : b.toNat < 32 then some ⟨b.toNat, h⟩ else none

/-- The byte of a volume index. -/
def volByte (v : Vol) : Byte := byteOf v.val

/-- The other slot of a volume. -/
def Slot.other : Slot → Slot
  | .a => .b
  | .b => .a

/-- Slot A lies in plane 0 and slot B in plane 1 (R3). -/
def slotPlane : Slot → Nat
  | .a => 0
  | .b => 1

/-- One slot of a record. -/
def Volume.slot (x : Volume) : Slot → SlotRec
  | .a => x.slotA
  | .b => x.slotB

/-- A record with one slot replaced. -/
def Volume.setSlot (x : Volume) (s : Slot) (r : SlotRec) : Volume :=
  match s with
  | .a => { x with slotA := r }
  | .b => { x with slotB := r }

/-- The base sector of a slot. -/
def Volume.base (x : Volume) : Slot → Nat
  | .a => x.baseA
  | .b => x.baseB

/-- Bytes of a slot (R4). -/
def Volume.slotBytes (x : Volume) : Nat := x.size * Config.sectorBytes

/-- The slot in a given state; a volume has at most one ACTIVE, PREVIOUS and STAGING slot (R5). -/
def Volume.slotIn (x : Volume) (st : SlotState) : Option Slot :=
  if x.slotA.state = st then some .a else if x.slotB.state = st then some .b else none

/-- Generation of a slot, 0 where absent (R5). -/
def SlotRec.gen (r : SlotRec) : Nat := (r.image.map Image.gen).getD 0

/-- Image length of a slot, 0 where absent (R5). -/
def SlotRec.len (r : SlotRec) : Nat := (r.image.map Image.len).getD 0

/-- Image CRC-32 of a slot, 0 where absent (R5). -/
def SlotRec.crc (r : SlotRec) : Word := (r.image.map Image.crc).getD 0

/-- The address of offset `o` of a slot (R3). -/
def Volume.address (x : Volume) (s : Slot) (o : Nat) : Nat := sectorBase (x.base s) + o

/-! ### Slot transitions (section 1.3) -/

/-- R9: the target becomes STAGING with its image fields absent; the other slot is not changed. -/
def Volume.stage (x : Volume) (s : Slot) : Volume := x.setSlot s { state := .staging, image := none }

/-- R10: the slot becomes ACTIVE with the new image, an ACTIVE other slot becomes PREVIOUS and keeps its image, and the
generation counter takes the new generation. -/
def Volume.commit (x : Volume) (s : Slot) (i : Image) : Volume :=
  let o := x.slot s.other
  let y := x.setSlot s { state := .active, image := some i }
  let z := if o.state = .active then y.setSlot s.other { o with state := .previous } else y
  { z with genCounter := i.gen }

/-- R11 for one slot: PREVIOUS becomes ACTIVE and ACTIVE becomes STALE, each with its image. -/
def SlotRec.rollback (r : SlotRec) : SlotRec :=
  match r.state with
  | .previous => { r with state := .active }
  | .active => { r with state := .stale }
  | .empty | .staging | .stale => r

/-- R11: ROLLBACK. The generation counter is not changed. -/
def Volume.rollback (x : Volume) : Volume := { x with slotA := x.slotA.rollback, slotB := x.slotB.rollback }

/-- R12 for one slot: STAGING becomes STALE with its image fields absent. -/
def SlotRec.endSession (r : SlotRec) : SlotRec :=
  if r.state = .staging then { state := .stale, image := none } else r

/-- R12: the end of a staging session without a commit, and the end of replay (R125). -/
def Volume.endSession (x : Volume) : Volume := { x with slotA := x.slotA.endSession, slotB := x.slotB.endSession }

/-- R13: the slot that is not ACTIVE, or slot A where the volume has no ACTIVE slot. -/
def Volume.target (x : Volume) : Slot :=
  match x.slotIn .active with
  | some s => s.other
  | none => .a

/-! ### Placement (R14) -/

/-- A volume owns a sector through one of its slots. -/
def Volume.owns (x : Volume) (sector : Nat) : Bool :=
  (x.baseA ≤ sector && sector < x.baseA + x.size) || (x.baseB ≤ sector && sector < x.baseB + x.size)

/-- A sector of volume space is free when no in-use volume owns it (R14). -/
def freeSector (d : Directory) (sector : Nat) : Bool :=
  d.toList.all (fun x => match x with
    | some v => !v.owns sector
    | none => true)

/-- The lowest first sector of a run of `n` free sectors from `lo` to `hi` (R14). -/
def firstRun (d : Directory) (lo hi n : Nat) : Option Nat :=
  ((List.range (hi + 2 - lo - n)).map (· + lo)).find?
    (fun b => (List.range n).all (fun i => freeSector d (b + i)))

/-- One more sector of a scan for the longest run: the run that ends here and the best run so far. -/
def runStep (d : Directory) (acc : Nat × Nat) (sector : Nat) : Nat × Nat :=
  let run := if freeSector d sector then acc.1 + 1 else 0
  (run, max run acc.2)

/-- The longest run of free sectors from `lo` to `hi` (R109). -/
def longestRun (d : Directory) (lo hi : Nat) : Nat :=
  (((List.range (hi + 1 - lo)).map (· + lo)).foldl (runStep d) (0, 0)).2

/-- First and last sector of the volume space of a plane (R1). -/
def planeSpace : Nat → Nat × Nat
  | 0 => (1, 255)
  | _ => (257, 511)

/-- The base sectors that CREATE_VOLUME would get for slot size `n` (R14). -/
def place (d : Directory) (n : Nat) : Option (Nat × Nat) :=
  match firstRun d 1 255 n, firstRun d 257 511 n with
  | some a, some b => some (a, b)
  | _, _ => none

/-! ### Records and the directory -/

/-- A record just created (R16). -/
def Volume.created (label : Half) (size baseA baseB : Nat) (readers writers : Mask) : Volume :=
  { label := label, size := size, baseA := baseA, baseB := baseB, readers := readers, writers := writers
    pinned := false, genCounter := 0
    slotA := { state := .empty, image := none }, slotB := { state := .empty, image := none }
    deleting := false }

/-- Slot size and base sectors lie in the ranges of R4 (R182). -/
def placed (size baseA baseB : Nat) : Bool :=
  1 ≤ size && size ≤ 64 && 1 ≤ baseA && baseA ≤ 255 && 257 ≤ baseB && baseB ≤ 511

/-- The image that three stored fields describe: fields recorded as 0 are absent (R123). -/
def imageOf (gen len crc : Word) : Option Image :=
  if gen = 0 ∧ len = 0 ∧ crc = 0 then none else some { gen := gen.toNat, len := len.toNat, crc := crc }

/-- Change the record of an in-use volume. -/
def onVolume (d : Directory) (b : Byte) (f : Volume → Option Volume) : Option Directory :=
  match volIndex b with
  | none => none
  | some v =>
    match d[v] with
    | none => none
    | some x =>
      match f x with
      | none => none
      | some y => some (d.set v (some y))

/-- The effect of a record on the directory, none where the condition of R124 fails. The completion of the entry in the
running part and its replay have the same effect (R124); in the running part the condition holds (log entry 17). -/
def applyRecord (r : JRecord) (d : Directory) : Option Directory :=
  match r with
  | .create b label size baseA baseB readers writers =>
    match volIndex b with
    | none => none
    | some v =>
      if d[v] = none ∧ placed size.toNat baseA.toNat baseB.toNat then
        some (d.set v (some (Volume.created label size.toNat baseA.toNat baseB.toNat
          (readers.setWidth 4) (writers.setWidth 4))))
      else none
  | .delete b =>
    match volIndex b with
    | none => none
    | some v => if d[v] = none then none else some (d.set v none)
  | .access b readers writers =>
    onVolume d b (fun x => some { x with readers := readers.setWidth 4, writers := writers.setWidth 4 })
  | .pin b => onVolume d b (fun x => some { x with pinned := true })
  | .unpin b => onVolume d b (fun x => some { x with pinned := false })
  | .stage b slot =>
    onVolume d b (fun x =>
      match slotOfCode slot with
      | none => none
      | some s =>
        if (x.slot s).state ≠ .active ∧ (x.slot s.other).state ≠ .staging then some (x.stage s) else none)
  | .commit b slot gen len crc =>
    onVolume d b (fun x =>
      match slotOfCode slot with
      | none => none
      | some s =>
        if (x.slot s).state = .staging ∧ gen.toNat = x.genCounter + 1 then
          some (x.commit s { gen := gen.toNat, len := len.toNat, crc := crc })
        else none)
  | .rollback b =>
    onVolume d b (fun x => if (x.slotIn .previous).isSome then some x.rollback else none)
  | .header _ | .snapVol .. | .snapSlot .. | .snapEnd _ => none

/-- The directory after the entry of a record has completed in the running part (R8, R114). -/
def applied (r : JRecord) (d : Directory) : Directory := (applyRecord r d).getD d

/-- The SNAP_VOL of an in-use volume (R118). -/
def snapVolOf (v : Vol) (x : Volume) : JRecord :=
  .snapVol (volByte v) x.label (byteOf x.size) (BitVec.ofNat 16 x.baseA) (BitVec.ofNat 16 x.baseB)
    (x.readers.setWidth 8) (x.writers.setWidth 8) (if x.pinned then 1 else 0) (BitVec.ofNat 32 x.genCounter)

/-- The SNAP_SLOT of a slot, absent fields as 0 (R118). -/
def snapSlotOf (v : Vol) (x : Volume) (s : Slot) : JRecord :=
  let r := x.slot s
  .snapSlot (volByte v) (slotCode s) (slotStateCode r.state) (BitVec.ofNat 32 r.gen) (BitVec.ofNat 32 r.len) r.crc

/-- The snapshot after the HEADER: for each in-use volume in rising index its SNAP_VOL and two SNAP_SLOTs, then SNAP_END
(R118). -/
def snapshotItems (d : Directory) : List SnapItem :=
  (List.finRange 32).flatMap (fun v =>
    match d[v] with
    | some _ => [SnapItem.vol v, .slot v .a, .slot v .b]
    | none => []) ++ [.fin]

/-- The record of a snapshot item as the directory stands when its program begins (R118). `written` counts the entries
already completed, so SNAP_END counts itself. -/
def itemRecord (d : Directory) (written : Nat) : SnapItem → JRecord
  | .vol v =>
    match d[v] with
    | some x => snapVolOf v x
    | none => .snapEnd 0
  | .slot v s =>
    match d[v] with
    | some x => snapSlotOf v x s
    | none => .snapEnd 0
  | .fin => .snapEnd (BitVec.ofNat 16 (written + 1))

end Sys2Proof.Machine
end

