-- ==== Sys2Proof/Machine/Flags.lean ====
section
/-! DEFINITION. What follows from the state: reservations and free entries (R157, R158), claim references and view counts
(R6), the status byte (R159), PnATTN (R170), the needs of R165 and the report bodies of section 10.5. -/

namespace Sys2Proof.Machine

/-! ### Claims, views and waiters as the other blocks see them -/

/-- The four Claim Table entries, lowest first. -/
def claimIxs : List ClaimIx := [0, 1, 2, 3]

/-- A Claim Table entry names a volume. -/
def State.claimNames (s : State) (v : Vol) (c : ClaimIx) : Bool :=
  match s.claims[c] with
  | some cl => cl.vol == v
  | none => false

/-- The claim reference of a volume (R6). -/
def State.claimOf (s : State) (v : Vol) : Option ClaimIx := claimIxs.find? (s.claimNames v)

/-- A Claim Table entry is a HELD claim of a port. -/
def State.heldBy (s : State) (p : Port) (c : ClaimIx) : Bool :=
  match s.claims[c] with
  | some cl => cl.holder == p && cl.state == .held
  | none => false

/-- The HELD claim of a port on a volume (R39). -/
def State.heldClaim (s : State) (p : Port) (v : Vol) : Option ClaimIx :=
  claimIxs.find? (fun c => s.claimNames v c && s.heldBy p c)

/-- The lowest-numbered free Claim Table entry (R41, R46). -/
def State.freeClaim (s : State) : Option ClaimIx := claimIxs.find? (fun c => s.claims[c].isNone)

/-- A port waits for a volume (R45). -/
def State.waitsFor (s : State) (p : Port) (v : Vol) : Bool := s.waits.any (fun w => w.port == p && w.vol == v)

/-- The open views of all ports. -/
def State.openViews (s : State) : List View := s.views.toList.flatMap (fun row => row.toList.filterMap id)

/-- The view count of a slot (R6). -/
def State.viewCount (s : State) (v : Vol) (sl : Slot) : Nat :=
  s.openViews.countP (fun x => x.vol == v && x.slot == sl)

/-- The volume is pinned and PINEN is asserted (R136). -/
def State.pinRefuses (s : State) (x : Volume) : Bool := x.pinned && s.pinen

/-! ### Reservations (R158) -/

/-- One entry for an operation in flight of the port, unless its discard mark is set. -/
def State.flightReservation (s : State) (p : Port) : Nat :=
  match s.engine with
  | some e => if e.port = some p ∧ e.discard = false then 1 else 0
  | none => 0

/-- The reservation count of a port: its queued records, its operation in flight, a notice for each HELD claim, and two for
each wait (R158). -/
def State.reservations (s : State) (p : Port) : Nat :=
  s.fifos[p].length + s.flightReservation p + claimIxs.countP (s.heldBy p)
    + 2 * s.waits.countP (fun w => w.port == p)

/-- The held responses of a port. -/
def State.held (s : State) (p : Port) : Nat := s.hpi[p].queue.length

/-- The free response entries of a port (R157). -/
def State.freeEntries (s : State) (p : Port) : Nat := Config.queueEntries - (s.held p + s.reservations p)

/-! ### What a port shows -/

/-- The port serves frames: power is on and neither RESET nor its PnRST is asserted (R171, R174). -/
def State.serves (s : State) (p : Port) : Bool := s.powered && !s.resetLine && !s.hpi[p].rst

/-- PnSDO is driven, and not high-impedance: PnSEL is asserted and the port is not held in reset or without power (R156, R171,
R174). -/
def State.drivesSdo (s : State) (p : Port) : Bool := s.serves p && s.hpi[p].sel

/-- PnATTN is asserted (R170). -/
def State.attn (s : State) (p : Port) : Bool := s.serves p && !s.hpi[p].queue.isEmpty

/-- The status byte of a port (R159, R178). -/
def State.statusByte (s : State) (p : Port) : Byte := packStatus s.mode s.hpi[p].outcome (s.held p)

/-! ### Needs (R165) -/

/-- A kind that is queued for the engine (Requests at a glance). -/
def isEngineKind : Kind → Bool
  | .createVolume | .deleteVolume | .setAccess | .pin | .unpin | .format | .provision
  | .beginStage | .erase | .program | .commit | .rollback | .compact => true
  | .queryDevice | .queryVolume | .read | .openView | .closeView | .claim | .release | .renew | .readStaged => false

/-- The port holds a HELD claim on the named volume or waits for it. -/
def State.standing (s : State) (p : Port) (volume : Byte) : Bool :=
  match volIndex volume with
  | some v => (s.heldClaim p v).isSome || s.waitsFor p v
  | none => false

/-- The free response entries a request needs (R165). A CLAIM too short to carry its flag counts as flag 0. -/
def need (k : Kind) (p : Port) (volume : Byte) (params : List Byte) (s : State) : Nat :=
  match k with
  | .claim => if byteAt params 0 = 0 then 2 else 3
  | .release => if s.standing p volume && params.isEmpty then 0 else 1
  | .queryDevice | .queryVolume | .createVolume | .deleteVolume | .setAccess | .pin | .unpin | .format | .provision
  | .read | .openView | .closeView | .renew | .beginStage | .erase | .program | .readStaged | .commit | .rollback
  | .compact => 1

/-! ### Report bodies (section 10.5) -/

/-- The 13 bytes of a slot in the volume report. -/
def slotReport (r : SlotRec) : List Byte :=
  [slotStateCode r.state] ++ word r.gen ++ word r.len ++ be32 r.crc

/-- The claim fields of the volume report: holder port or 0xFF, and claim state (R181). -/
def claimReport (s : State) (v : Vol) : List Byte :=
  match s.claimOf v with
  | none => [0xFF, 0]
  | some c =>
    match s.claims[c] with
    | none => [0xFF, 0]
    | some cl => [byteOf cl.holder.val, claimStateCode (some cl.state)]

/-- The flags byte of the volume report: bit 0 pinned, bit 1 deletion under way. -/
def volumeFlags (x : Volume) : Byte := (if x.pinned then 1 else 0) ||| (if x.deleting then 2 else 0)

/-- The volume report of QUERY_VOLUME (R21, section 10.5). -/
def volumeReport (s : State) (v : Vol) (x : Volume) : List Byte :=
  ([volByte v] : List Byte) ++ be16 x.label ++ ([byteOf x.size] : List Byte) ++ half x.baseA ++ half x.baseB
    ++ ([x.readers.setWidth 8, x.writers.setWidth 8, volumeFlags x] : List Byte)
    ++ word x.genCounter ++ slotReport x.slotA ++ slotReport x.slotB ++ claimReport s v
    ++ ([byteOf (s.viewCount v .a), byteOf (s.viewCount v .b), byteOf (s.waits.countP (fun w => w.vol == v))] : List Byte)

/-- The journal fields of the device report; 0 in UNFORMATTED (R181). -/
def journalReport (s : State) : List Byte :=
  match s.journal with
  | none => ([0] : List Byte) ++ word 0 ++ half 0 ++ half 0
  | some j => [jsectorCode (some j.sector)] ++ word j.epoch ++ half (Config.positions - j.append) ++ half s.skipped

/-- The port field of an operation in flight: 4 for internal (section 10.5). -/
def portField : Option Port → Byte
  | some p => byteOf p.val
  | none => 4

/-- The in-flight fields of the device report (R109, R181). -/
def flightReport (s : State) : List Byte :=
  match s.engine with
  | none => [0xFF, 0, 0, 0, 0]
  | some e => [portField e.port, kindCode e.op.kind, (e.op.vol.map volByte).getD 0, phaseCode e.phase, byteOf e.suspends]

/-- The device report of QUERY_DEVICE (R109, section 10.5). -/
def deviceReport (s : State) : List Byte :=
  ([(modeCode s.mode).setWidth 8, provCode s.prov, s.values.admin.setWidth 8, byteOf s.values.lease,
   byteOf s.values.eraseBudget, byteOf s.values.programBudget] : List Byte)
    ++ journalReport s ++ ([if s.compactSlot then 1 else 0] : List Byte) ++ flightReport s
    ++ [byteOf s.fifos[0].length, byteOf s.fifos[1].length, byteOf s.fifos[2].length, byteOf s.fifos[3].length,
        byteOf (longestRun s.vols 1 255), byteOf (longestRun s.vols 257 511)]

end Sys2Proof.Machine
end

