-- ==== Sys2Proof/Machine/Operands.lean ====
section
/-! DEFINITION. The parameters of each request, read from the parameter bytes of its frame (R179), and the checks on them
that need nothing but the frame. -/

namespace Sys2Proof.Machine

/-- A request as taken: kind, tag, volume index byte and parameter bytes. -/
structure Request where
  kind   : Kind
  tag    : Byte
  volume : Byte
  params : List Byte
  deriving DecidableEq, Repr

/-- The number of parameter bytes is not what the kind uses. PROGRAM may carry more than its 6, for its data (R179). -/
def badCount (r : Request) : Bool :=
  if r.kind = .program then r.params.length < paramSize .program else r.params.length ≠ paramSize r.kind

/-- A mask parameter with a bit other than bits 3 to 0 set (R15). -/
def badMask (m : Byte) : Bool := 15 < m.toNat

/-- CREATE_VOLUME: label. -/
def createLabel (ps : List Byte) : Half := halfAt ps 0
/-- CREATE_VOLUME: slot size. -/
def createSize (ps : List Byte) : Nat := (byteAt ps 2).toNat
/-- CREATE_VOLUME: reader mask. -/
def createReaders (ps : List Byte) : Byte := byteAt ps 3
/-- CREATE_VOLUME: writer mask. -/
def createWriters (ps : List Byte) : Byte := byteAt ps 4

/-- SET_ACCESS: reader mask. -/
def accessReaders (ps : List Byte) : Byte := byteAt ps 0
/-- SET_ACCESS: writer mask. -/
def accessWriters (ps : List Byte) : Byte := byteAt ps 1

/-- READ: source. -/
inductive Source where
  | current
  | handle (h : Handle)
  deriving DecidableEq, Repr

/-- READ: 0xFF is CURRENT and 0x00 to 0x03 name a handle; every other value is malformed (R179). -/
def readSource (ps : List Byte) : Option Source :=
  let b := byteAt ps 0
  if b = 0xFF then some .current
  else if h : b.toNat < 4 then some (.handle ⟨b.toNat, h⟩) else none

/-- READ: offset. -/
def readOffset (ps : List Byte) : Nat := (wordAt ps 1).toNat
/-- READ: length. -/
def readLength (ps : List Byte) : Nat := (halfAt ps 5).toNat

/-- A length that no READ, READ_STAGED or PROGRAM accepts: 0 or above 256 (R24, R71, R75). -/
def badLength (n : Nat) : Bool := n == 0 || 256 < n

/-- CLOSE_VIEW: handle; none above 3 (R33). -/
def closeHandle (ps : List Byte) : Option Handle :=
  let b := byteAt ps 0
  if h : b.toNat < 4 then some ⟨b.toNat, h⟩ else none

/-- CLAIM: wait flag, 0 or 1; none for another value (R40). -/
def claimWait (ps : List Byte) : Option Bool :=
  if byteAt ps 0 = 0 then some false else if byteAt ps 0 = 1 then some true else none

/-- ERASE: sector index within the slot. -/
def eraseSectorIx (ps : List Byte) : Nat := (byteAt ps 0).toNat

/-- PROGRAM: offset. -/
def programOffset (ps : List Byte) : Nat := (wordAt ps 0).toNat
/-- PROGRAM: length. -/
def programLength (ps : List Byte) : Nat := (halfAt ps 4).toNat
/-- PROGRAM: data bytes. -/
def programData (ps : List Byte) : List Byte := ps.drop 6
/-- PROGRAM: sector index within the slot (R72). -/
def programSectorIx (ps : List Byte) : Nat := programOffset ps / Config.sectorBytes
/-- PROGRAM: page within the sector (R72). -/
def programPage (ps : List Byte) : Nat := programOffset ps % Config.sectorBytes / Config.pageBytes

/-- READ_STAGED: offset. -/
def stagedOffset (ps : List Byte) : Nat := (wordAt ps 0).toNat
/-- READ_STAGED: length. -/
def stagedLength (ps : List Byte) : Nat := (halfAt ps 4).toNat

/-- COMMIT: image length. -/
def commitLength (ps : List Byte) : Nat := (wordAt ps 0).toNat
/-- COMMIT: image CRC-32. -/
def commitCrc (ps : List Byte) : Word := wordAt ps 4

/-- PROVISION: admin mask. -/
def provAdmin (ps : List Byte) : Byte := byteAt ps 0
/-- PROVISION: lease count. -/
def provLease (ps : List Byte) : Byte := byteAt ps 1
/-- PROVISION: erase-class budget. -/
def provErase (ps : List Byte) : Byte := byteAt ps 2
/-- PROVISION: program-class budget. -/
def provProgram (ps : List Byte) : Byte := byteAt ps 3

/-- PROVISION: parameters out of the ranges of R150. A lease count of one byte is never above 255. -/
def badProvision (ps : List Byte) : Bool :=
  provAdmin ps == 0 || badMask (provAdmin ps) || provLease ps == 0 || 16 < (provErase ps).toNat
    || 4 < (provProgram ps).toNat

/-- The parameters of a staging request that are malformed for R60: a sector index above 63 (R68); an offset off the page
boundary, a bad length or data bytes that differ from it (R71). -/
def badStaging (k : Kind) (ps : List Byte) : Bool :=
  match k with
  | .erase => 63 < eraseSectorIx ps
  | .program => programOffset ps % Config.pageBytes ≠ 0 || badLength (programLength ps)
      || (programData ps).length ≠ programLength ps
  | .queryDevice | .queryVolume | .createVolume | .deleteVolume | .setAccess | .pin | .unpin | .format | .provision
  | .read | .openView | .closeView | .claim | .release | .renew | .beginStage | .readStaged | .commit | .rollback
  | .compact => false

/-- The parameters of an administrative request that are malformed for R15. -/
def badAdmin (k : Kind) (ps : List Byte) : Bool :=
  match k with
  | .createVolume => badMask (createReaders ps) || badMask (createWriters ps) || createSize ps == 0
      || 64 < createSize ps
  | .setAccess => badMask (accessReaders ps) || badMask (accessWriters ps)
  | .queryDevice | .queryVolume | .deleteVolume | .pin | .unpin | .format | .provision
  | .read | .openView | .closeView | .claim | .release | .renew | .beginStage | .erase | .program | .readStaged
  | .commit | .rollback | .compact => false

/-- A port is a member of a port set. -/
def inMask (m : Mask) (p : Port) : Bool := m.getLsbD p.val

end Sys2Proof.Machine
end

