-- ==== Sys2Proof/Decode.lean ====
section
/-! DEFINITION. Reading a SUBMIT frame from its bytes (R161, R162, R179), total and with `none` for every frame that is
REJECTED, and the encoder after it. The opcode table gives its rows no bits, so no table word spells a command. -/

namespace Sys2Proof

namespace Machine

/-- The request a SUBMIT frame carries, read from the bytes after its kind byte; none where R162 rejects the frame: it is
truncated, its length lies outside 5 to 267, its CRC-16 does not match, or its code names no request. Bytes beyond the frame
length are ignored (R161). -/
def parseSubmit (bytes : List Byte) : Option Request :=
  if bytes.length < 2 then none
  else
    let len := (halfAt bytes 0).toNat
    if len < 5 ∨ 267 < len then none
    else if bytes.length < 2 + len then none
    else if halfAt bytes len ≠ crc16 (submitKind :: bytes.take len) then none
    else
      match kindOfCode (byteAt bytes 3) with
      | none => none
      | some k =>
        some { kind := k, tag := byteAt bytes 2, volume := byteAt bytes 4, params := (bytes.take len).drop 5 }

/-- The bytes of a SUBMIT frame after its kind byte and before its CRC-16 (R179). -/
def submitFront (r : Request) : List Byte :=
  half (r.params.length + 5) ++ [r.tag, kindCode r.kind, r.volume] ++ r.params

/-- The bytes of a SUBMIT frame after its kind byte (R161, R179). -/
def encodeSubmit (r : Request) : List Byte :=
  submitFront r ++ be16 (crc16 (submitKind :: submitFront r))

/-- The bytes the host shifts in for a SUBMIT frame and beyond it (R161). -/
def submitWire (r : Request) (extra : List Byte) : List Byte := submitKind :: encodeSubmit r ++ extra

end Machine

/-- No row of spec/opcode_table.json has bits, so no word spells a command (log entry 29). -/
def decodeTableWord (_nbits _w : Nat) : Option Instr := none

end Sys2Proof
end

