-- ==== Sys2Proof/Machine/Replay.lean ====
section
/-! DEFINITION. Replay (R113, R122 to R125): how start-up judges the two journal sectors, chooses one and rebuilds the
directory from it. Replay reads the array and writes nothing to it. -/

namespace Sys2Proof.Machine

/-- A position by its bytes alone (R113): all 0xFF, an entry by CRC-32 and kind code, or neither (`none` inside). A position
that meets undefined content is not blank and holds no entry (R113). -/
def rawPosition (st : Store) (j : JSector) (k : Nat) : Option (Option JEntry) :=
  let lo := positionBase j k
  if st.spoiled.any (fun x => x.meets lo (lo + Config.positionBytes)) then some none
  else
    let bs := st.readBytes lo Config.positionBytes
    if bs.all (· == erasedByte) then none else some (entryOf bs)

/-- Judge positions in order: an entry whose sequence number is not above that of the last valid entry is invalid (R113).
The result holds `none` for a blank position, `some none` for an invalid one and `some (some e)` for a valid entry. -/
def classify (last : Option Word) : List (Option (Option JEntry)) → List (Option (Option JEntry))
  | [] => []
  | none :: rest => none :: classify last rest
  | some none :: rest => some none :: classify last rest
  | some (some e) :: rest =>
    match last with
    | none => some (some e) :: classify (some e.seq) rest
    | some q =>
      if q.toNat < e.seq.toNat then some (some e) :: classify (some e.seq) rest
      else some none :: classify last rest

/-- The 2,048 positions of a journal sector as replay judges them. -/
def judged (st : Store) (j : JSector) : List (Option (Option JEntry)) :=
  let near := st.within (positionBase j 0) (positionBase j Config.positions)
  classify none ((List.range Config.positions).map (rawPosition near j))

/-- The valid entries of judged positions, in order. -/
def validEntries (ps : List (Option (Option JEntry))) : List JEntry :=
  ps.filterMap (fun p => match p with
    | some (some e) => some e
    | some none => none
    | none => none)

/-- A record is a SNAP_VOL or a SNAP_SLOT. -/
def isSnapBody : JRecord → Bool
  | .snapVol .. => true
  | .snapSlot .. => true
  | .header _ | .create .. | .delete _ | .access .. | .pin _ | .unpin _ | .stage .. | .commit .. | .rollback _
  | .snapEnd _ => false

/-- The entries after the HEADER run through SNAP_VOLs and SNAP_SLOTs to a SNAP_END whose count is that of the valid entries
from the HEADER on (R122). `n` counts the entries before. -/
def snapshotComplete (n : Nat) : List JEntry → Bool
  | [] => false
  | e :: rest =>
    match e.content with
    | .snapEnd count => count.toNat == n + 1
    | .snapVol .. | .snapSlot .. => snapshotComplete (n + 1) rest
    | .header _ | .create .. | .delete _ | .access .. | .pin _ | .unpin _ | .stage .. | .commit .. | .rollback _ => false

/-- The number of the first position that holds a valid entry. -/
def firstValid : Nat → List (Option (Option JEntry)) → Option Nat
  | _, [] => none
  | k, some (some _) :: _ => some k
  | k, _ :: rest => firstValid (k + 1) rest

/-- The epoch of a usable sector; none where the sector is not usable (R122). -/
def usableEpoch (ps : List (Option (Option JEntry))) : Option Nat :=
  match firstValid 0 ps with
  | none => none
  | some k =>
    if k ≤ 2 then
      match validEntries ps with
      | [] => none
      | e :: rest =>
        match e.content with
        | .header epoch => if snapshotComplete 1 rest then some epoch.toNat else none
        | .create .. | .delete _ | .access .. | .pin _ | .unpin _ | .stage .. | .commit .. | .rollback _ | .snapVol ..
        | .snapSlot .. | .snapEnd _ => none
    else none

/-- An epoch is newer than another when it is one higher, or 1 after 4,294,967,295 (R122). -/
def epochNewer (e f : Nat) : Bool := e == f + 1 || (e == 1 && f == Config.wordMax)

/-- The sector replay rebuilds from (R122). -/
def chooseSector (e0 e1 : Option Nat) : Option (JSector × Nat) :=
  match e0, e1 with
  | none, none => none
  | some e, none => some (.j0, e)
  | none, some e => some (.j1, e)
  | some e, some f =>
    if epochNewer e f then some (.j0, e)
    else if epochNewer f e then some (.j1, f)
    else if e < f then some (.j1, f) else some (.j0, e)

/-- The skipped-entry counter goes up by one unless it stands at 4,095 (R112). -/
def countSkip (n : Nat) : Nat := if n < Config.skippedMax then n + 1 else n

/-- Where replay stands: the directory rebuilt so far, the volume of the SNAP_VOL last read, whether the SNAP_END has been
read, and the positions counted. -/
structure Rebuild where
  dir     : Directory
  last    : Option Byte
  ended   : Bool
  skipped : Nat
  deriving DecidableEq, Repr

/-- Replay has read nothing (R123). -/
def Rebuild.start : Rebuild := { dir := Vector.replicate 32 none, last := none, ended := false, skipped := 0 }

/-- One more position skipped and counted. -/
def Rebuild.skip (r : Rebuild) : Rebuild := { r with skipped := countSkip r.skipped }

/-- A SNAP_VOL (R123, R182). It is the SNAP_VOL last read even where it is skipped: DESIGN CHOICE, log entry 30. -/
def rebuildVol (r : Rebuild) (b : Byte) (label : Half) (size : Byte) (baseA baseB : Half) (readers writers pinned : Byte)
    (gen : Word) : Rebuild :=
  let r1 := { r with last := some b }
  match volIndex b with
  | none => r1.skip
  | some v =>
    if r.dir[v] = none ∧ placed size.toNat baseA.toNat baseB.toNat then
      { r1 with dir := r.dir.set v (some { Volume.created label size.toNat baseA.toNat baseB.toNat
          (readers.setWidth 4) (writers.setWidth 4) with pinned := pinned != 0, genCounter := gen.toNat }) }
    else r1.skip

/-- A SNAP_SLOT (R123, R182). One that follows a SNAP_VOL skipped for its slot size or base sectors names a volume that is not in
use; the manual does not say how it is treated, and the model skips and counts it: DESIGN CHOICE, log entry 30. -/
def rebuildSlot (r : Rebuild) (b slot state : Byte) (gen len crc : Word) : Rebuild :=
  match slotOfCode slot, slotStateOfCode state with
  | some s, some t =>
    if r.last = some b then
      match onVolume r.dir b (fun x => some (x.setSlot s { state := t, image := imageOf gen len crc })) with
      | some d => { r with dir := d }
      | none => r.skip
    else r.skip
  | _, _ => r.skip

/-- A valid entry, before or after the SNAP_END (R123, R124). -/
def rebuildEntry (r : Rebuild) (e : JEntry) : Rebuild :=
  if r.ended then
    match applyRecord e.content r.dir with
    | some d => { r with dir := d }
    | none => r.skip
  else
    match e.content with
    | .header _ => r
    | .snapVol b label size baseA baseB readers writers pinned gen =>
      rebuildVol r b label size baseA baseB readers writers pinned gen
    | .snapSlot b slot state gen len crc => rebuildSlot r b slot state gen len crc
    | .snapEnd _ => { r with ended := true }
    | .create .. | .delete _ | .access .. | .pin _ | .unpin _ | .stage .. | .commit .. | .rollback _ => r.skip

/-- One position: a blank one is passed over, an invalid one is skipped and counted (R123, R124). -/
def rebuildStep (r : Rebuild) (p : Option (Option JEntry)) : Rebuild :=
  match p with
  | none => r
  | some none => r.skip
  | some (some e) => rebuildEntry r e

/-- All positions of the chosen sector in order (R123, R124). -/
def rebuild (ps : List (Option (Option JEntry))) : Rebuild := ps.foldl rebuildStep Rebuild.start

/-- The position after the last one that is not blank (R125). -/
def appendAfter : Nat → List (Option (Option JEntry)) → Nat
  | _, [] => 0
  | k, p :: rest =>
    let later := appendAfter (k + 1) rest
    if later = 0 then (if p.isSome then k + 1 else 0) else later

/-- The sequence number after that of the last valid entry (R125). -/
def nextSeq (ps : List (Option (Option JEntry))) : Nat :=
  match (validEntries ps).getLast? with
  | some e => e.seq.toNat + 1
  | none => 1

/-- What replay leaves: the journal's place, the skipped-entry counter and the directory with every STAGING slot STALE
(R125). -/
structure Replayed where
  journal : Journal
  skipped : Nat
  dir     : Directory
  deriving DecidableEq, Repr

/-- The directory at the end of replay (R7, R125): every STAGING slot STALE. -/
def endReplay (d : Directory) : Directory := d.map (fun x => x.map Volume.endSession)

/-- Replay of the array; none where no sector is usable (R122). -/
def replay (st : Store) : Option Replayed :=
  let p0 := judged st .j0
  let p1 := judged st .j1
  match chooseSector (usableEpoch p0) (usableEpoch p1) with
  | none => none
  | some (j, epoch) =>
    let ps := match j with
      | .j0 => p0
      | .j1 => p1
    let r := rebuild ps
    some { journal := { sector := j, epoch := epoch, append := appendAfter 0 ps, seq := nextSeq ps }
           skipped := r.skipped
           dir := endReplay r.dir }

end Sys2Proof.Machine
end

