-- ==== Sys2Proof/Machine/Ops.lean ====
section
/-! DEFINITION. The named operations over the state that the commands share: writing one item, answering a port, leases,
grants, the end of a claim, the revocation procedure, and the removal of waiters. -/

namespace Sys2Proof.Machine

/-! ### Writing one item -/

/-- Replace what a port holds. -/
def State.setHpi (s : State) (p : Port) (h : Hpi) : State := { s with hpi := s.hpi.set p h }

/-- A response joins the tail of a port's queue (R166). -/
def State.push (s : State) (p : Port) (r : Response) : State :=
  s.setHpi p { s.hpi[p] with queue := s.hpi[p].queue ++ [r] }

/-- Set the last outcome of a port (R160, R162, R163). -/
def State.setOutcome (s : State) (p : Port) (o : FrameOutcome) : State := s.setHpi p { s.hpi[p] with outcome := o }

/-- Replace a directory record. -/
def State.setVol (s : State) (v : Vol) (x : Option Volume) : State := { s with vols := s.vols.set v x }

/-- Change the record of a volume, if it is in use. -/
def State.onVol (s : State) (v : Vol) (f : Volume → Volume) : State := s.setVol v (s.vols[v].map f)

/-- Replace a Claim Table entry. -/
def State.setClaim (s : State) (c : ClaimIx) (x : Option Claim) : State := { s with claims := s.claims.set c x }

/-- Change a Claim Table entry, if it is in use. -/
def State.onClaim (s : State) (c : ClaimIx) (f : Claim → Claim) : State := s.setClaim c (s.claims[c].map f)

/-- Replace a FIFO. -/
def State.setFifo (s : State) (p : Port) (ops : List Op) : State := { s with fifos := s.fifos.set p ops }

/-- Replace a View Table entry. -/
def State.setView (s : State) (p : Port) (h : Handle) (x : Option View) : State :=
  { s with views := s.views.set p (s.views[p].set h x) }

/-- Change the operation in flight, if there is one. -/
def State.onFlight (s : State) (f : InFlight → InFlight) : State := { s with engine := s.engine.map f }

/-- The answer to a request: its own tag and request code (R167). -/
def State.answer (s : State) (p : Port) (r : Request) (st : Status) (body : List Byte) : State :=
  s.push p { tag := r.tag, kind := r.kind, status := st, body := body }

/-! ### The lease (R51) -/

/-- A kind that uses the volume index of its frame (R51). -/
def namesVolume : Kind → Bool
  | .closeView | .queryDevice | .format | .provision | .compact => false
  | .queryVolume | .createVolume | .deleteVolume | .setAccess | .pin | .unpin | .read | .openView | .claim
  | .release | .renew | .beginStage | .erase | .program | .readStaged | .commit | .rollback => true

/-- A request taken from the holder that names the claimed volume reloads the lease of a HELD claim (R51). -/
def State.reload (s : State) (p : Port) (k : Kind) (volume : Byte) : State :=
  if namesVolume k then
    match volIndex volume with
    | none => s
    | some v =>
      match s.heldClaim p v with
      | none => s
      | some c => s.onClaim c (fun cl => { cl with lease := s.values.lease })
  else s

/-! ### Grants (R45, R46) -/

/-- A waiter is eligible (R45). -/
def State.eligible (s : State) (w : Waiter) : Bool :=
  match s.vols[w.vol] with
  | none => false
  | some x => !x.deleting && (s.claimOf w.vol).isNone && !s.pinRefuses x

/-- A new HELD claim (R41, R46). -/
def newClaim (s : State) (v : Vol) (p : Port) (tag : Byte) : Claim :=
  { vol := v, holder := p, state := .held, tag := tag, lease := s.values.lease, pending := 0, map := none }

/-- One grant to a waiter through a free entry (R46). -/
def State.grantTo (s : State) (c : ClaimIx) (w : Waiter) : State :=
  ({ s with waits := s.waits.erase w }.setClaim c (some (newClaim s w.vol w.port w.tag))).push w.port
    { tag := w.tag, kind := .claim, status := .granted, body := [byteOf s.values.lease] }

/-- The next grant, if an entry is free and a waiter is eligible: the lowest-numbered entry and the earliest waiter (R46). -/
def State.nextGrant (s : State) : Option State :=
  match s.freeClaim, s.waits.find? s.eligible with
  | some c, some w => some (s.grantTo c w)
  | _, _ => none

/-- Grants one at a time, at most `n` (R46). -/
def grantUpTo : Nat → State → State
  | 0, s => s
  | n + 1, s =>
    match s.nextGrant with
    | none => s
    | some t => grantUpTo n t

/-- Every grant that is possible (R46): each takes one waiter off the list. -/
def State.grantAll (s : State) : State := grantUpTo s.waits.length s

/-! ### The end of a claim (R38, R55, R56) -/

/-- Free an entry: its fields are cleared, the staging session of its volume ends (R12), and grants follow (R38). -/
def State.freeEntry (s : State) (c : ClaimIx) : State :=
  match s.claims[c] with
  | none => s
  | some cl => ((s.setClaim c none).onVol cl.vol Volume.endSession).grantAll

/-- The operation in flight belongs to a claim. -/
def State.flightOf (s : State) (c : ClaimIx) : Bool :=
  match s.engine with
  | some e => e.op.claim == some c
  | none => false

/-- What the revocation procedure tells the holder (R55). -/
inductive Notice where
  | silent | expired | revoked
  | released (tag : Byte)
  deriving DecidableEq, Repr

/-- CANCELLED for each removed operation, in FIFO order (R55). -/
def State.cancelled (s : State) (p : Port) : List Op → State
  | [] => s
  | o :: rest => (s.push p { tag := o.tag, kind := o.kind, status := .cancelled, body := [] }).cancelled p rest

/-- The notice of the cause (R55, R167). RELEASED carries the CLAIM tag and whether the claim became REVOKING (R48). -/
def State.notify (s : State) (cl : Claim) (n : Notice) (revoking : Bool) : State :=
  match n with
  | .silent => s
  | .expired => s.push cl.holder { tag := cl.tag, kind := .claim, status := .expired, body := [] }
  | .revoked => s.push cl.holder { tag := cl.tag, kind := .claim, status := .revoked, body := [] }
  | .released tag => s.push cl.holder
      { tag := tag, kind := .release, status := .released, body := [cl.tag, if revoking then 1 else 0] }

/-- Bound to the claim of an entry (R39). -/
def Op.boundTo (c : ClaimIx) (o : Op) : Bool := o.claim == some c

/-- The revocation procedure (R55), whatever the cause. -/
def State.revoke (s : State) (c : ClaimIx) (n : Notice) : State :=
  match s.claims[c] with
  | none => s
  | some cl =>
    let gone := s.fifos[cl.holder].filter (Op.boundTo c)
    let s1 := s.setFifo cl.holder (s.fifos[cl.holder].filter (fun o => !Op.boundTo c o))
    let s2 := if n = .silent then s1 else s1.cancelled cl.holder gone
    let s3 := s2.notify cl n (s.flightOf c)
    let cl1 := { cl with pending := cl.pending - gone.length }
    if s.flightOf c then s3.setClaim c (some { cl1 with state := .revoking })
    else (s3.setClaim c (some cl1)).freeEntry c

/-- Revoke the HELD claim on a volume with a notice, if there is one. -/
def State.revokeVolume (s : State) (v : Vol) (n : Notice) : State :=
  match s.claimOf v with
  | none => s
  | some c =>
    match s.claims[c] with
    | none => s
    | some cl => if cl.state = .held then s.revoke c n else s

/-! ### The removal of waiters (R47) -/

/-- The answer of a cause to each waiter, in list order, with its CLAIM tag. -/
def State.answerWaiters (s : State) (st : Status) : List Waiter → State
  | [] => s
  | w :: rest => (s.push w.port { tag := w.tag, kind := .claim, status := st, body := [] }).answerWaiters st rest

/-- Remove the waiters a cause names and answer them in list order (R47). -/
def State.removeWaiters (s : State) (f : Waiter → Bool) (st : Status) : State :=
  { s with waits := s.waits.filter (fun w => !f w) }.answerWaiters st (s.waits.filter f)

/-- A waiter's volume is pinned. -/
def State.waiterPinned (s : State) (w : Waiter) : Bool :=
  match s.vols[w.vol] with
  | some x => x.pinned
  | none => false

/-! ### Reset values (R7, R23, R59, R88, R157) -/

/-- A port's HPI when a reset reaches it; its PnRST and PnSEL lines keep their levels (R157, R174). -/
def Hpi.reset (h : Hpi) : Hpi := Hpi.cleared h.rst h.sel

/-- The volatile state after power-on or RESET, in STARTING (R7, R23, R59, R88, R112, R174). The array, the row, the lines,
the provisioning state and values (set again by the derivation of R147) and the skipped-entry counter are not cleared. -/
def State.clearVolatile (s : State) : State :=
  { s with
    hpi := s.hpi.map Hpi.reset
    vols := Vector.replicate 32 none
    views := Vector.replicate 4 (Vector.replicate 4 none)
    claims := Vector.replicate 4 none
    waits := []
    fifos := Vector.replicate 4 []
    compactSlot := false
    rr := 3
    engine := none
    mode := .starting
    journal := none }

end Sys2Proof.Machine
end

