-- ==== Sys2Proof/Machine/Engine.lean ====
section
/-! DEFINITION. The Array Engine: the pick (R90, R91), the start of an operation with its checks (R93), and its completion
(R103). -/

namespace Sys2Proof.Machine

/-- What the start of an operation comes to: it completes at once with a status and a body, or it enters its first phase. -/
inductive Started where
  | ends (status : Status) (body : List Byte) (s : State)
  | runs (s : State)

/-- The record of a COMPACT (R89). -/
def compactOp : Op := { tag := 0, kind := .compact, vol := none, params := [], data := [], claim := none }

/-- An operation just picked (R92). -/
def flight (p : Option Port) (op : Op) (v : Values) : InFlight :=
  { port := p, op := op, phase := .none, suspends := 0, eraseBudget := v.eraseBudget, programBudget := v.programBudget
    discard := false, entry := none, tries := 0, own := none }

/-- Enter a phase. -/
def State.enter (s : State) (ph : Phase) : State := s.onFlight (fun e => { e with phase := ph })

/-- JOURNALING begins with a record: it takes the value of the sequence counter (R114). A record whose first position lies
beyond the sector is lost at once (R115, log entry 15). -/
def beginRecord (r : JRecord) (s : State) : Started :=
  match s.journal with
  | none => .ends .arrayFault [] { s with mode := .degraded }
  | some j =>
    if j.append < Config.positions then
      .runs (s.onFlight (fun e => { e with
        phase := .journaling j.sector
        entry := some { seq := BitVec.ofNat 32 j.seq, content := r }
        tries := 0 }))
    else .ends .arrayFault [] { s with mode := .degraded }

/-! ### Start checks by kind -/

/-- CREATE_VOLUME (R14, R16). -/
def startCreate (op : Op) (v : Vol) (s : State) : Started :=
  if s.vols[v].isSome then .ends .inUse [] s
  else
    match place s.vols (createSize op.params) with
    | none => .ends .noSpace [] s
    | some (a, b) =>
      beginRecord (.create (volByte v) (createLabel op.params) (byteOf (createSize op.params)) (BitVec.ofNat 16 a)
        (BitVec.ofNat 16 b) (createReaders op.params) (createWriters op.params)) s

/-- DELETE_VOLUME (R17): the deletion flag is set when its entry is begun. -/
def startDelete (v : Vol) (s : State) : Started :=
  match s.vols[v] with
  | none => .ends .noVolume [] s
  | some x =>
    if s.pinRefuses x then .ends .pinned [] s
    else if (s.claimOf v).isSome ∨ 0 < s.viewCount v .a ∨ 0 < s.viewCount v .b then .ends .inUse [] s
    else
      match beginRecord (.delete (volByte v)) s with
      | .ends st body t => .ends st body t
      | .runs t => .runs (t.onVol v (fun y => { y with deleting := true }))

/-- SET_ACCESS (R19). -/
def startAccess (op : Op) (v : Vol) (s : State) : Started :=
  match s.vols[v] with
  | none => .ends .noVolume [] s
  | some x =>
    if s.pinRefuses x then .ends .pinned [] s
    else beginRecord (.access (volByte v) (accessReaders op.params) (accessWriters op.params)) s

/-- PIN (R138). -/
def startPin (v : Vol) (s : State) : Started :=
  if s.vols[v].isNone then .ends .noVolume [] s else beginRecord (.pin (volByte v)) s

/-- UNPIN (R140). -/
def startUnpin (v : Vol) (s : State) : Started :=
  match s.vols[v] with
  | none => .ends .noVolume [] s
  | some x => if s.pinRefuses x then .ends .pinned [] s else beginRecord (.unpin (volByte v)) s

/-- FORMAT (R132, R133). -/
def startFormat (s : State) : Started :=
  if s.mode = .unformatted then .runs (s.enter (.erasing (jsectorNumber .j0))) else .ends .mode [] s

/-- PROVISION (R151). -/
def startProvision (s : State) : Started :=
  if s.prov = .blank then .runs (s.enter .rowWriting) else .ends .frozen [] s

/-- BEGIN_STAGE (R13, R66). -/
def startStage (v : Vol) (s : State) : Started :=
  match s.vols[v] with
  | none => .ends .noVolume [] s
  | some x =>
    if (x.slotIn .staging).isSome then .ends .stagingOpen [] s
    else if 0 < s.viewCount v x.target then .ends .slotHeld [] s
    else beginRecord (.stage (volByte v) (slotCode x.target)) s

/-- The entry of a staging map; a sector the map does not list is UNKNOWN. -/
def mapEntry (m : Option (List MapEntry)) (i : Nat) : MapEntry :=
  (m.getD []).getD i { state := .unknown, ptr := 0 }

/-- The staging map of the claim an operation is bound to. -/
def State.mapOf (s : State) (c : Option ClaimIx) : Option (List MapEntry) :=
  match c with
  | none => none
  | some i =>
    match s.claims[i] with
    | none => none
    | some cl => cl.map

/-- ERASE (R68). -/
def startErase (op : Op) (v : Vol) (s : State) : Started :=
  match s.vols[v] with
  | none => .ends .noStaging [] s
  | some x =>
    match x.slotIn .staging with
    | none => .ends .noStaging [] s
    | some sl =>
      if x.size ≤ eraseSectorIx op.params then .ends .range [] s
      else .runs (s.enter (.erasing (x.base sl + eraseSectorIx op.params)))

/-- PROGRAM (R72). -/
def startProgram (op : Op) (v : Vol) (s : State) : Started :=
  match s.vols[v] with
  | none => .ends .noStaging [] s
  | some x =>
    match x.slotIn .staging with
    | none => .ends .noStaging [] s
    | some sl =>
      let m := mapEntry (s.mapOf op.claim) (programSectorIx op.params)
      if x.slotBytes < programOffset op.params + programLength op.params then .ends .range [] s
      else if m.state = .unknown then .ends .notErased [] s
      else if programPage op.params < m.ptr then .ends .outOfOrder (half m.ptr) s
      else .runs (s.enter (.programming (x.base sl + programSectorIx op.params) (programPage op.params)))

/-- The lowest sector below `n` whose map entry is UNKNOWN (R77). -/
def lowestUnknown (m : Option (List MapEntry)) (n : Nat) : Option Nat :=
  (List.range n).find? (fun i => (mapEntry m i).state = .unknown)

/-- COMMIT (R77). -/
def startCommit (op : Op) (v : Vol) (s : State) : Started :=
  match s.vols[v] with
  | none => .ends .noStaging [] s
  | some x =>
    if (x.slotIn .staging).isNone then .ends .noStaging [] s
    else if commitLength op.params = 0 ∨ x.slotBytes < commitLength op.params then .ends .range [] s
    else if x.genCounter = Config.wordMax then .ends .genLimit [] s
    else
      match lowestUnknown (s.mapOf op.claim) ((commitLength op.params - 1) / Config.sectorBytes + 1) with
      | some i => .ends .incomplete [byteOf i] s
      | none => .runs (s.enter .verifying)

/-- ROLLBACK (R82). -/
def startRollback (v : Vol) (s : State) : Started :=
  match s.vols[v] with
  | none => .ends .noPrevious [] s
  | some x =>
    if (x.slotIn .staging).isSome then .ends .stagingOpen [] s
    else if (x.slotIn .previous).isNone then .ends .noPrevious [] s
    else beginRecord (.rollback (volByte v)) s

/-- The journal sector that is not `j`. -/
def JSector.other : JSector → JSector
  | .j0 => .j1
  | .j1 => .j0

/-- COMPACT (R117, R120): in NORMAL it erases the sector that is not current, in any other mode it completes at once. -/
def startCompact (s : State) : Started :=
  match s.journal with
  | some j =>
    if s.mode = .normal then .runs (s.enter (.erasing (jsectorNumber j.sector.other))) else .ends .done [] s
  | none => .ends .done [] s

/-- The kinds that a start in DEGRADED completes with DEGRADED (R131). -/
def stopsDegraded : Kind → Bool
  | .createVolume | .deleteVolume | .setAccess | .pin | .unpin | .beginStage | .commit | .rollback => true
  | .queryDevice | .queryVolume | .format | .provision | .read | .openView | .closeView | .claim | .release | .renew
  | .erase | .program | .readStaged | .compact => false

/-- The claim an operation is bound to is HELD, or it is bound to none (R61). -/
def State.claimHeld (s : State) (c : Option ClaimIx) : Bool :=
  match c with
  | none => true
  | some i =>
    match s.claims[i] with
    | some cl => cl.state == .held
    | none => false

/-- The start checks of the kind (R93). A kind that names a volume carries one in its record. -/
def startKind (op : Op) (s : State) : Started :=
  match op.kind, op.vol with
  | .createVolume, some v => startCreate op v s
  | .deleteVolume, some v => startDelete v s
  | .setAccess, some v => startAccess op v s
  | .pin, some v => startPin v s
  | .unpin, some v => startUnpin v s
  | .beginStage, some v => startStage v s
  | .erase, some v => startErase op v s
  | .program, some v => startProgram op v s
  | .commit, some v => startCommit op v s
  | .rollback, some v => startRollback v s
  | .format, _ => startFormat s
  | .provision, _ => startProvision s
  | .compact, _ => startCompact s
  | _, _ => .ends .badRequest [] s

/-- The start of the operation just picked: mode check, claim check, checks of the kind (R61, R93, R131). -/
def startOp (op : Op) (s : State) : Started :=
  if s.mode = .degraded ∧ stopsDegraded op.kind then .ends .degraded [] s
  else if s.claimHeld op.claim = false then .ends .notClaimed [] s
  else startKind op s

/-! ### Completion (R103) -/

/-- Step 3 of R103: the pending operation count of the claim goes down by one, and a REVOKING claim is freed (R56). -/
def State.lowerClaim (s : State) (c : ClaimIx) : State :=
  match s.claims[c] with
  | none => s
  | some cl =>
    match cl.state with
    | .held => s.setClaim c (some { cl with pending := cl.pending - 1 })
    | .revoking => s.freeEntry c

/-- Step 2 of R103: the completion response, unless the operation is a COMPACT or its discard mark is set. -/
def State.respond (s : State) (e : InFlight) (st : Status) (body : List Byte) : State :=
  match e.port with
  | none => s
  | some p => if e.discard then s else s.push p { tag := e.op.tag, kind := e.op.kind, status := st, body := body }

/-- Steps 2 to 4 of R103: the response, the claim, and an idle engine. -/
def State.finish (s : State) (st : Status) (body : List Byte) : State :=
  match s.engine with
  | none => s
  | some e =>
    let s1 := s.respond e st body
    let s2 := match e.op.claim with
      | none => s1
      | some c => s1.lowerClaim c
    { s2 with engine := none }

/-! ### The pick (R90, R91) -/

/-- The ports in the order the arbiter looks at them: after the round-robin pointer first (R91). -/
def State.scan (s : State) : List Port := [s.rr + 1, s.rr + 2, s.rr + 3, s.rr]

/-- The operation chosen at a pick leaves its FIFO or the compaction slot and is in flight (R90, R91). -/
def State.takePick (s : State) : Option (Op × State) :=
  if s.compactSlot then some (compactOp, { s with compactSlot := false, engine := some (flight none compactOp s.values) })
  else
    match s.scan.find? (fun p => !s.fifos[p].isEmpty) with
    | none => none
    | some p =>
      match s.fifos[p] with
      | [] => none
      | op :: rest => some (op, { s.setFifo p rest with rr := p, engine := some (flight (some p) op s.values) })

/-- Picks until an operation enters a phase or no work is left; an operation that fails a start check completes at once and
the arbiter picks again in the same moment (R93). Each pick takes one record, so `n` is the records that wait. -/
def pickUpTo : Nat → State → State
  | 0, s => s
  | n + 1, s =>
    match s.takePick with
    | none => s
    | some (op, t) =>
      match startOp op t with
      | .runs u => u
      | .ends st body u => pickUpTo n (u.finish st body)

/-- The operations that wait in FIFOs and in the compaction slot. -/
def State.work (s : State) : Nat :=
  s.fifos[0].length + s.fifos[1].length + s.fifos[2].length + s.fifos[3].length + (if s.compactSlot then 1 else 0)

/-- The arbiter picks if the engine is idle and work exists; in STARTING it picks nothing (R90, R121). -/
def State.pick (s : State) : State :=
  if s.engine.isSome ∨ s.mode = .starting then s else pickUpTo s.work s

/-- The completion of the operation in flight, its effect already applied (R103 steps 2 to 5). -/
def State.complete (s : State) (st : Status) (body : List Byte) : State := (s.finish st body).pick

/-- A COMPACT is in flight. -/
def State.compacting (s : State) : Bool :=
  match s.engine with
  | some e => e.op.kind == .compact
  | none => false

/-- The Journal Unit schedules compaction; a COMPACT that waits or is in flight leaves the slot as it is (R89). -/
def State.scheduleCompaction (s : State) : State := if s.compacting then s else { s with compactSlot := true }

/-- The free entries of the current journal sector (R112). -/
def Journal.free (j : Journal) : Nat := Config.positions - j.append

/-- The compaction check (R116, R125). -/
def State.compactionCheck (s : State) : State :=
  match s.journal with
  | none => s
  | some j => if j.free ≤ Config.compactThreshold then s.scheduleCompaction else s

end Sys2Proof.Machine
end

