-- ==== Sys2Proof/Machine/Frames.lean ====
section
/-! DEFINITION. Taking a request (R162 to R164): the frame outcome, the mode check (R130), the parameter count (R179) and the
taking checks and answers of each kind; and the moments of a frame (R156, R159 to R161, R168). -/

namespace Sys2Proof.Machine

/-- The outcome of a command. -/
abbrev Res := Host.Outcome State Fault Refusal

/-- The refusal of the mode check (R130). In STARTING no request reaches it. -/
def modeRefusal (k : Kind) (m : Mode) : Option Status :=
  match m with
  | .starting => none
  | .normal => if k = .format then some .mode else none
  | .unformatted =>
    match k with
    | .queryDevice | .provision | .format => none
    | .queryVolume | .createVolume | .deleteVolume | .setAccess | .pin | .unpin | .read | .openView | .closeView
    | .claim | .release | .renew | .beginStage | .erase | .program | .readStaged | .commit | .rollback
    | .compact => some .mode
  | .degraded =>
    match k with
    | .format => some .mode
    | .provision | .createVolume | .deleteVolume | .setAccess | .pin | .unpin | .beginStage | .erase | .program
    | .commit | .rollback => some .degraded
    | .queryDevice | .queryVolume | .read | .openView | .closeView | .claim | .release | .renew | .readStaged
    | .compact => none

/-! ### Engine requests -/

/-- An engine request that passes joins the tail of its FIFO, and the arbiter picks if the engine is idle (R86, R90). -/
def State.enqueue (s : State) (p : Port) (op : Op) : State := (s.setFifo p (s.fifos[p] ++ [op])).pick

/-- The operation record of a request (R85). -/
def opOf (r : Request) (v : Option Vol) (c : Option ClaimIx) : Op :=
  { tag := r.tag, kind := r.kind, vol := v, params := r.params
    data := if r.kind = .program then programData r.params else [], claim := c }

/-- The admin set in force holds the port (R148, R149). -/
def State.isAdmin (s : State) (p : Port) : Bool := inMask s.values.admin p

/-- CREATE_VOLUME, DELETE_VOLUME, SET_ACCESS, PIN and UNPIN at taking (R15, R137). -/
def takeAdmin (r : Request) (p : Port) (s : State) : State :=
  if s.isAdmin p = false then s.answer p r .denied []
  else
    match volIndex r.volume with
    | none => s.answer p r .badRequest []
    | some v => if badAdmin r.kind r.params then s.answer p r .badRequest [] else s.enqueue p (opOf r (some v) none)

/-- FORMAT at taking (R132). -/
def takeFormat (r : Request) (p : Port) (s : State) : State :=
  if s.isAdmin p = false then s.answer p r .denied [] else s.enqueue p (opOf r none none)

/-- PROVISION at taking (R150). -/
def takeProvision (r : Request) (p : Port) (s : State) : State :=
  if badProvision r.params then s.answer p r .badRequest []
  else if s.prov ≠ .blank then s.answer p r .frozen []
  else s.enqueue p (opOf r none none)

/-- BEGIN_STAGE, ERASE, PROGRAM, COMMIT and ROLLBACK at taking (R60). -/
def takeStaging (r : Request) (p : Port) (s : State) : State :=
  match volIndex r.volume with
  | none => s.answer p r .badRequest []
  | some v =>
    if badStaging r.kind r.params then s.answer p r .badRequest []
    else
      match s.heldClaim p v with
      | none => s.answer p r .notClaimed []
      | some c => (s.onClaim c (fun cl => { cl with pending := cl.pending + 1 })).enqueue p (opOf r (some v) (some c))

/-! ### Reads -/

/-- A read that has passed its own checks (R3): address, number of bytes, slot, and the generation its DATA carries. -/
structure Resolved where
  addr : Nat
  len  : Nat
  slot : Slot
  gen  : Nat
  deriving DecidableEq, Repr

/-- READ from CURRENT (R25). -/
def resolveCurrent (p : Port) (v : Vol) (o n : Nat) (s : State) : Except Status Resolved :=
  match s.vols[v] with
  | none => .error .noVolume
  | some x =>
    if inMask x.readers p = false then .error .denied
    else
      match x.slotIn .active with
      | none => .error .noImage
      | some sl =>
        if (x.slot sl).len < o + n then .error .range
        else .ok { addr := x.address sl o, len := n, slot := sl, gen := (x.slot sl).gen }

/-- READ through a view (R26). The view names an in-use volume (R22); where it does not, the read finds no volume. -/
def resolveView (p : Port) (h : Handle) (v : Vol) (o n : Nat) (s : State) : Except Status Resolved :=
  match s.views[p][h] with
  | none => .error .noView
  | some w =>
    if w.vol ≠ v then .error .noView
    else if w.len < o + n then .error .range
    else
      match s.vols[v] with
      | none => .error .noVolume
      | some x => .ok { addr := x.address w.slot o, len := n, slot := w.slot, gen := w.gen }

/-- READ (R24): its parameter checks, then those of its source. -/
def resolveRead (r : Request) (p : Port) (s : State) : Except Status Resolved :=
  match volIndex r.volume, readSource r.params with
  | some v, some src =>
    if badLength (readLength r.params) then .error .badRequest
    else
      match src with
      | .current => resolveCurrent p v (readOffset r.params) (readLength r.params) s
      | .handle h => resolveView p h v (readOffset r.params) (readLength r.params) s
  | _, _ => .error .badRequest

/-- The sectors of a slot that the bytes from `o` for `n` touch. -/
def sectorsTouched (o n : Nat) : List Nat :=
  (List.range ((o + n - 1) / Config.sectorBytes + 1 - o / Config.sectorBytes)).map (· + o / Config.sectorBytes)

/-- An ERASE or PROGRAM of the volume is in flight on one of these array sectors (R75). -/
def State.busyOn (s : State) (v : Vol) (sectors : List Nat) : Bool :=
  match s.engine with
  | none => false
  | some e =>
    (e.op.kind == .erase || e.op.kind == .program) && e.op.vol == some v &&
      (match e.phase with
       | .erasing n => sectors.contains n
       | .programming n _ => sectors.contains n
       | .none | .verifying | .journaling _ | .rowWriting => false)

/-- READ_STAGED (R75, R76). -/
def resolveStaged (r : Request) (p : Port) (s : State) : Except Status Resolved :=
  let o := stagedOffset r.params
  let n := stagedLength r.params
  match volIndex r.volume with
  | none => .error .badRequest
  | some v =>
    if badLength n then .error .badRequest
    else
      match s.heldClaim p v with
      | none => .error .notClaimed
      | some c =>
        match s.vols[v] with
        | none => .error .noStaging
        | some x =>
          match x.slotIn .staging with
          | none => .error .noStaging
          | some sl =>
            if x.slotBytes < o + n then .error .range
            else if (sectorsTouched o n).any (fun i => (mapEntry (s.mapOf (some c)) i).state = .unknown) then
              .error .notErased
            else if s.busyOn v ((sectorsTouched o n).map (· + x.base sl)) then .error .busy
            else .ok { addr := x.address sl o, len := n, slot := sl, gen := 0 }

/-- What the plane check says (R100). -/
inductive PlaneCheck where
  | served | suspends | retry
  deriving DecidableEq, Repr

/-- The plane check of the table of R100. -/
def planeCheck (s : State) (plane : Nat) : PlaneCheck :=
  match s.engine with
  | none => .served
  | some e =>
    match e.phase with
    | .none | .verifying | .rowWriting => .served
    | .erasing n =>
      if planeOf n ≠ plane then .served else if e.suspends < e.eraseBudget then .suspends else .retry
    | .programming n _ =>
      if planeOf n ≠ plane then .served else if e.suspends < e.programBudget then .suspends else .retry
    | .journaling j => if planeOf (jsectorNumber j) ≠ plane then .served else .retry

/-- DATA for a resolved read (R27, R76). -/
def State.answerData (s : State) (p : Port) (r : Request) (x : Resolved) : State :=
  s.answer p r .data (dataBody x.gen x.slot (s.store.readBytes x.addr x.len))

/-- The answer to a resolved read: DATA, DATA by a suspension, or RETRY (R27, R76, R100 to R102). -/
def answerRead (r : Request) (p : Port) (x : Resolved) (s : State) : State :=
  match planeCheck s (slotPlane x.slot) with
  | .served => s.answerData p r x
  | .suspends => (s.onFlight (fun e => { e with suspends := e.suspends + 1 })).answerData p r x
  | .retry => s.answer p r .retry []

/-- A READ or READ_STAGED from its own checks on. -/
def takeResolved (res : Except Status Resolved) (r : Request) (p : Port) (s : State) : State :=
  match res with
  | .error st => s.answer p r st []
  | .ok x => answerRead r p x s

/-! ### Views -/

/-- The lowest-numbered closed entry of a port (R32). -/
def State.closedHandle (s : State) (p : Port) : Option Handle :=
  claimIxs.find? (fun h => s.views[p][h].isNone)

/-- OPEN_VIEW (R31, R32). -/
def takeOpenView (r : Request) (p : Port) (s : State) : State :=
  match volIndex r.volume with
  | none => s.answer p r .badRequest []
  | some v =>
    match s.vols[v] with
    | none => s.answer p r .noVolume []
    | some x =>
      if x.deleting then s.answer p r .noVolume []
      else if inMask x.readers p = false then s.answer p r .denied []
      else
        match x.slotIn .active with
        | none => s.answer p r .noImage []
        | some sl =>
          match s.closedHandle p with
          | none => s.answer p r .viewFull []
          | some h =>
            (s.setView p h (some { vol := v, slot := sl, gen := (x.slot sl).gen, len := (x.slot sl).len })).answer p r .view
              (viewBody h sl { gen := (x.slot sl).gen, len := (x.slot sl).len, crc := (x.slot sl).crc })

/-- CLOSE_VIEW (R33). Its volume field is not examined. -/
def takeCloseView (r : Request) (p : Port) (s : State) : State :=
  match closeHandle r.params with
  | none => s.answer p r .badRequest []
  | some h =>
    match s.views[p][h] with
    | none => s.answer p r .noView []
    | some _ => (s.setView p h none).answer p r .ok []

/-! ### Queries -/

/-- QUERY_VOLUME (R21). -/
def takeQueryVolume (r : Request) (p : Port) (s : State) : State :=
  match volIndex r.volume with
  | none => s.answer p r .badRequest []
  | some v =>
    match s.vols[v] with
    | none => s.answer p r .noVolume []
    | some x => s.answer p r .ok (volumeReport s v x)

/-- QUERY_DEVICE (R109). -/
def takeQueryDevice (r : Request) (p : Port) (s : State) : State := s.answer p r .ok (deviceReport s)

/-! ### Claims -/

/-- A CLAIM that passed the checks of R40 and finds the volume unclaimed and entry `c` free (R41). -/
def claimNow (r : Request) (p : Port) (v : Vol) (c : ClaimIx) (s : State) : State :=
  (s.setClaim c (some (newClaim s v p r.tag))).answer p r .claimed [byteOf s.values.lease]

/-- A CLAIM with wait that cannot be served at once (R43). -/
def claimWaits (r : Request) (p : Port) (v : Vol) (s : State) : State :=
  if Config.waitEntries ≤ s.waits.length then s.answer p r .waitFull []
  else
    { s with waits := s.waits ++ [({ port := p, vol := v, tag := r.tag } : Waiter)] }.answer p r .queued
      [byteOf (s.waits.countP (fun w : Waiter => w.vol == v))]

/-- A CLAIM that passed the checks of R40 (R41 to R43). -/
def claimChecked (r : Request) (p : Port) (v : Vol) (wait : Bool) (s : State) : State :=
  match s.claimOf v with
  | none =>
    match s.freeClaim with
    | some c => claimNow r p v c s
    | none => if wait then claimWaits r p v s else s.answer p r .tableFull []
  | some c =>
    if wait then claimWaits r p v s
    else
      match s.claims[c] with
      | none => s.answer p r .tableFull []
      | some cl => s.answer p r .claimHeld [byteOf cl.holder.val, claimStateCode (some cl.state)]

/-- The port is the holder of the claim on a volume: its state (R40). -/
def State.ownClaim (s : State) (p : Port) (v : Vol) : Option ClaimState :=
  match s.claimOf v with
  | none => none
  | some c =>
    match s.claims[c] with
    | none => none
    | some cl => if cl.holder = p then some cl.state else none

/-- CLAIM (R40). -/
def takeClaim (r : Request) (p : Port) (s : State) : State :=
  match volIndex r.volume, claimWait r.params with
  | some v, some wait =>
    match s.vols[v] with
    | none => s.answer p r .noVolume []
    | some x =>
      if x.deleting then s.answer p r .noVolume []
      else if inMask x.writers p = false then s.answer p r .denied []
      else if s.pinRefuses x then s.answer p r .pinned []
      else
        match s.ownClaim p v with
        | some .held => s.answer p r .alreadyHeld []
        | some .revoking => s.answer p r .notClaimed []
        | none => if s.waitsFor p v then s.answer p r .alreadyWaiting [] else claimChecked r p v wait s
  | _, _ => s.answer p r .badRequest []

/-- RELEASE by a waiter (R49). -/
def withdraw (r : Request) (p : Port) (w : Waiter) (s : State) : State :=
  { s with waits := s.waits.erase w }.answer p r .withdrawn [w.tag]

/-- RELEASE (R48, R49). -/
def takeRelease (r : Request) (p : Port) (s : State) : State :=
  match volIndex r.volume with
  | none => s.answer p r .badRequest []
  | some v =>
    match s.heldClaim p v with
    | some c => s.revoke c (.released r.tag)
    | none =>
      match s.waits.find? (fun w => w.port == p && w.vol == v) with
      | some w => withdraw r p w s
      | none => s.answer p r .notClaimed []

/-- RENEW (R50). The reload has been made at the taking (R51); the answer carries the count loaded. -/
def takeRenew (r : Request) (p : Port) (s : State) : State :=
  match volIndex r.volume with
  | none => s.answer p r .badRequest []
  | some v =>
    match s.heldClaim p v with
    | none => s.answer p r .notClaimed []
    | some _ => s.answer p r .ok [byteOf s.values.lease]

/-! ### Taking -/

/-- A taken request after its mode check and its parameter count (R164). -/
def takeKind (r : Request) (p : Port) (s : State) : State :=
  match r.kind with
  | .queryDevice => takeQueryDevice r p s
  | .queryVolume => takeQueryVolume r p s
  | .createVolume | .deleteVolume | .setAccess | .pin | .unpin => takeAdmin r p s
  | .format => takeFormat r p s
  | .provision => takeProvision r p s
  | .read => takeResolved (resolveRead r p s) r p s
  | .openView => takeOpenView r p s
  | .closeView => takeCloseView r p s
  | .claim => takeClaim r p s
  | .release => takeRelease r p s
  | .renew => takeRenew r p s
  | .beginStage | .erase | .program | .commit | .rollback => takeStaging r p s
  | .readStaged => takeResolved (resolveStaged r p s) r p s
  | .compact => s

/-- A request whose frame outcome is TAKEN: the mode check, the parameter count, then its kind (R130, R164, R179). -/
def takeRequest (r : Request) (p : Port) (s : State) : State :=
  match modeRefusal r.kind s.mode with
  | some st => s.answer p r st []
  | none => if badCount r then s.answer p r .badRequest [] else takeKind r p s

/-- The read that a taken request makes of the array, if it makes one (R3). -/
def readOf (r : Request) (p : Port) (s : State) : Option Resolved :=
  if (modeRefusal r.kind s.mode).isSome ∨ badCount r then none
  else
    match (if r.kind = .read then resolveRead r p s else if r.kind = .readStaged then resolveStaged r p s
        else .error .badRequest) with
    | .ok x => some x
    | .error _ => none

/-- A read resolves beyond the array (log entry 18). -/
def readsOutside (r : Request) (p : Port) (s : State) : Bool :=
  match readOf r p s with
  | some x => Config.arrayBytes < x.addr + x.len
  | none => false

/-- The port has fewer free entries than the request needs, or an engine request finds its FIFO full (R163). -/
def isFull (r : Request) (p : Port) (s : State) : Bool :=
  s.freeEntries p < need r.kind p r.volume r.params s || (isEngineKind r.kind && Config.fifoEntries ≤ s.fifos[p].length)

/-- A well-formed SUBMIT frame at its end: REJECTED, FULL, or TAKEN with all that follows (R51, R162 to R164). -/
def submitRequest (r : Request) (p : Port) (s : State) : Res :=
  if s.mode = .starting ∨ 262 < r.params.length then .next (s.setOutcome p .rejected)
  else if isFull r p s then .next (s.setOutcome p .full)
  else
    let s1 := (s.setOutcome p .taken).reload p r.kind r.volume
    if readsOutside r p s1 then .fault .outsideArray else .next (takeRequest r p s1)

/-! ### The moments of a frame -/

/-- The level of PnSEL (R156). -/
def State.setSelect (s : State) (p : Port) (sel : Bool) : State := s.setHpi p { s.hpi[p] with sel := sel }

/-- A select period of a port that serves begins: the port takes the value of its status byte, and no byte has been received
(R157, R159). -/
def State.openFrame (s : State) (p : Port) : State :=
  s.setHpi p { s.hpi[p] with sel := true, frame := some { status := s.statusByte p, bytes := [], selected := none } }

/-- The select period ends with `out` shifted out on PnSDO (R156). -/
def State.closeFrame (s : State) (p : Port) (out : List Byte) : State :=
  s.setHpi p { s.hpi[p] with sel := false, frame := none, sdo := out }

/-- The first `n` bytes of `wire` have been received. The first byte of all completes the kind byte: a FETCH then selects the
head of the queue (R168, R169). Fewer bytes than before cannot have been received (log entry 11). -/
def Frame.receive (f : Frame) (queue : List Response) (wire : List Byte) (n : Nat) : Frame :=
  let received := wire.take (max n f.bytes.length)
  { f with
    bytes := received
    selected := if f.bytes = [] ∧ received.head? = some fetchKind then queue.head? else f.selected }

/-- A frame in progress receives bytes up to the first `n` of `wire`. Bytes that differ from those received before cannot
occur (log entry 11), and a select period that is no frame receives none (R173). -/
def State.receive (s : State) (p : Port) (wire : List Byte) (n : Nat) : State :=
  match s.hpi[p].frame with
  | none => s
  | some f =>
    if f.bytes.isPrefixOf wire then
      s.setHpi p { s.hpi[p] with frame := some (f.receive s.hpi[p].queue wire n) }
    else s

/-- The end of a select period in which the bytes of `wire` were shifted in: only the level of PnSEL where it is no frame
(R173), else `finish` with the frame that received them all. A wire that does not begin with the bytes received so far cannot
occur (log entry 11). -/
def endFrame (p : Port) (wire : List Byte) (finish : Frame → State → Res) (s : State) : Res :=
  match s.hpi[p].frame with
  | none => .next (s.setSelect p false)
  | some f =>
    if f.bytes.isPrefixOf wire then finish (f.receive s.hpi[p].queue wire wire.length) s else .next s

/-- A moment of a select period on a port that is held in reset or without power: it ignores its select and clock, and PnSEL
has its level all the same (R171, R174). -/
def State.ignoreFrame (s : State) (p : Port) (m : Moment) : State :=
  match m with
  | .select => s.setSelect p true
  | .received _ => s
  | .deselect | .whole => s.setSelect p false

/-- A frame command at its moment, with the bytes the host shifts in from the kind byte on. -/
def frameStep (p : Port) (m : Moment) (wire : List Byte) (finish : Frame → State → Res) (s : State) : Res :=
  if s.serves p = false then .next (s.ignoreFrame p m)
  else
    match m with
    | .select => .next (s.openFrame p)
    | .received n => .next (s.receive p wire n)
    | .deselect => endFrame p wire finish s
    | .whole => endFrame p wire finish (s.openFrame p)

/-- `n` bytes 0x00 (R160, R161). -/
def zeros (n : Nat) : List Byte := List.replicate n 0

/-- The end of a STATUS frame (R160): the last outcome stays. -/
def finishStatus (p : Port) (extra : Nat) (f : Frame) (s : State) : Res :=
  .next (s.closeFrame p (f.status :: zeros extra))

/-- What a FETCH shifts out after the status byte: the selected response, or a length of 0; then 0x00 (R168, R169). -/
def fetchBytes (sel : Option Response) : List Byte :=
  match sel with
  | some r => responseBytes r
  | none => [0, 0]

/-- The selected response was clocked through the last bit of its CRC-16 (R168). -/
def fetchedWhole (sel : Option Response) (bits : Nat) : Bool :=
  match sel with
  | some r => 8 * (responseBytes r).length ≤ bits
  | none => false

/-- The head of a port's queue leaves it (R166). -/
def State.popResponse (s : State) (p : Port) : State := s.setHpi p { s.hpi[p] with queue := s.hpi[p].queue.tail }

/-- The end of a FETCH frame after `bits` bits beyond the kind byte (R168, R169). -/
def finishFetch (p : Port) (bits : Nat) (f : Frame) (s : State) : Res :=
  let out := (List.range (bits / 8)).map (byteAt (fetchBytes f.selected))
  let s1 := s.closeFrame p (f.status :: out)
  .next (if fetchedWhole f.selected bits then s1.popResponse p else s1)

/-- The end of a SUBMIT frame that is well formed. Its bytes are 8 and its parameters, and `extra` beyond it. -/
def finishSubmit (r : Request) (p : Port) (extra : Nat) (f : Frame) (s : State) : Res :=
  submitRequest r p (s.closeFrame p (f.status :: zeros (r.params.length + 7 + extra)))

/-- The end of a SUBMIT frame given by the bytes after its kind byte: REJECTED under R162, or the request it carries. -/
def finishRawSubmit (p : Port) (bytes : List Byte) (f : Frame) (s : State) : Res :=
  let s1 := s.closeFrame p (f.status :: zeros bytes.length)
  match parseSubmit bytes with
  | none => .next (s1.setOutcome p .rejected)
  | some r => submitRequest r p s1

/-- The end of a select period given by all its bytes (R156, R160). With no whole byte it is not a frame and changes nothing
but that it is over. -/
def finishRaw (p : Port) (bytes : List Byte) (f : Frame) (s : State) : Res :=
  match bytes with
  | [] => .next (s.closeFrame p s.hpi[p].sdo)
  | k :: rest =>
    if k = statusKind then finishStatus p rest.length f s
    else if k = submitKind then finishRawSubmit p rest f s
    else if k = fetchKind then finishFetch p (8 * rest.length) f s
    else .next ((s.closeFrame p (f.status :: zeros rest.length)).setOutcome p .rejected)

/-- The request that a frame carries. -/
def requestOfFrame (k : Kind) (f : Submit) : Request := { kind := k, tag := f.tag, volume := f.volume, params := f.params }

/-- A well-formed SUBMIT frame of a kind, at its moment. -/
def submitFrame (k : Kind) (f : Submit) (s : State) : Res :=
  frameStep f.port f.moment (submitWire (requestOfFrame k f) f.extra)
    (finishSubmit (requestOfFrame k f) f.port f.extra.length) s

end Sys2Proof.Machine
end

