-- ==== Sys2Proof/Machine/StagingEvents.lean ====
section
/-! DEFINITION. The ends of the engine work of a staging session: erase, program and verify. An end of work that is not under
way names nothing and changes nothing (log entry 11). -/

namespace Sys2Proof.Machine

/-- Set an entry of the staging map of a claim (R69, R73, R74). -/
def State.setMapEntry (s : State) (c : Option ClaimIx) (i : Nat) (m : MapEntry) : State :=
  match c with
  | none => s
  | some j => s.onClaim j (fun cl => { cl with map := cl.map.map (fun l => l.set i m) })

/-- The operation in flight, if it is of a kind. -/
def State.flightIs (s : State) (k : Kind) : Option InFlight :=
  match s.engine with
  | some e => if e.op.kind = k then some e else none
  | none => none

/-- The end of an ERASE on array sector `n` (R69). -/
def eraseEnds (ok : Bool) (e : InFlight) (n : Nat) (s : State) : State :=
  let i := eraseSectorIx e.op.params
  if ok then
    ({ s with store := s.store.eraseSector n }.setMapEntry e.op.claim i { state := .erased, ptr := 0 }).complete
      .done [byteOf i]
  else
    ({ s with store := s.store.spoilSector n }.setMapEntry e.op.claim i { state := .unknown, ptr := 0 }).complete
      .arrayFault [byteOf i]

/-- ERASE_COMPLETION (R69). -/
def execEraseCompletion (ok : Bool) (s : State) : Res :=
  match s.flightIs .erase with
  | none => .next s
  | some e =>
    match e.phase with
    | .erasing n => if n < Config.sectors then .next (eraseEnds ok e n s) else .fault .outsideArray
    | .none | .programming _ _ | .verifying | .journaling _ | .rowWriting => .next s

/-- The first byte of a page of an array sector (R1). -/
def pageBase (n pg : Nat) : Nat := sectorBase n + pg * Config.pageBytes

/-- The end of a PROGRAM on page `pg` of array sector `n` (R73, R74). -/
def programEnds (ok : Bool) (e : InFlight) (n pg : Nat) (s : State) : State :=
  let i := programSectorIx e.op.params
  if ok then
    ({ s with store := s.store.program (pageBase n pg) e.op.data }.setMapEntry e.op.claim i
      { state := .programmed, ptr := pg + 1 }).complete .done (byteOf i :: half (pg + 1))
  else
    ({ s with store := s.store.spoilPage n pg }.setMapEntry e.op.claim i { state := .unknown, ptr := 0 }).complete
      .arrayFault [byteOf i]

/-- PROGRAM_COMPLETION (R73, R74). -/
def execProgramCompletion (ok : Bool) (s : State) : Res :=
  match s.flightIs .program with
  | none => .next s
  | some e =>
    match e.phase with
    | .programming n pg =>
      if pageBase n pg + e.op.data.length ≤ Config.arrayBytes then .next (programEnds ok e n pg s)
      else .fault .outsideArray
    | .none | .erasing _ | .verifying | .journaling _ | .rowWriting => .next s

/-- The staging slot a COMMIT verifies, with its volume (R78). -/
def State.stagedBy (s : State) (e : InFlight) : Option (Vol × Volume × Slot) :=
  match e.op.vol with
  | none => none
  | some v =>
    match s.vols[v] with
    | none => none
    | some x =>
      match x.slotIn .staging with
      | none => none
      | some sl => some (v, x, sl)

/-- The end of VERIFYING (R78, R79): CHECK_FAILED with the computed CRC-32, or JOURNALING with the new generation. -/
def verifyEnds (e : InFlight) (v : Vol) (x : Volume) (sl : Slot) (s : State) : State :=
  let len := commitLength e.op.params
  let crc := crc32 (s.store.readBytes (x.address sl 0) len)
  if crc ≠ commitCrc e.op.params then s.complete .checkFailed (be32 crc)
  else
    match beginRecord (.commit (volByte v) (slotCode sl) (BitVec.ofNat 32 (x.genCounter + 1)) (BitVec.ofNat 32 len) crc) s with
    | .runs t => t
    | .ends st body t => t.complete st body

/-- COMMIT_VERIFY_END (R78, R79). -/
def execCommitVerifyEnd (s : State) : Res :=
  match s.flightIs .commit with
  | none => .next s
  | some e =>
    match e.phase with
    | .verifying =>
      match s.stagedBy e with
      | none => .next s
      | some (v, x, sl) =>
        if x.address sl (commitLength e.op.params) ≤ Config.arrayBytes then .next (verifyEnds e v x sl s)
        else .fault .outsideArray
    | .none | .erasing _ | .programming _ _ | .journaling _ | .rowWriting => .next s

end Sys2Proof.Machine
end

