-- ==== Sys2Proof/Machine/EntryEvents.lean ====
section
/-! DEFINITION. Journal entries of the directory-changing kinds: their completion (R114) with the effects of each kind, and a
journal entry program that fails (R115). -/

namespace Sys2Proof.Machine

/-- The entry that a directory-changing operation of a kind has under program in the current sector (R97, R114). -/
def State.recordUnder (s : State) (k : Kind) : Option (InFlight × JEntry × Journal) :=
  match s.flightIs k, s.journal with
  | some e, some j =>
    match e.phase, e.entry, e.own with
    | .journaling _, some en, none => some (e, en, j)
    | _, _, _ => none
  | _, _ => none

/-- The entry stands at the append point, append point and sequence counter go up, the change reaches the directory, and the
compaction check follows (R114). -/
def State.journalled (s : State) (en : JEntry) (j : Journal) : State :=
  { s with
    store := s.store.program (positionBase j.sector j.append) (entryBytes en)
    journal := some { j with append := j.append + 1, seq := j.seq + 1 }
    vols := applied en.content s.vols }.compactionCheck

/-- The completion of an entry of a kind: R114, then what the kind adds, then DONE (R103). -/
def entryCompletes (k : Kind) (after : InFlight → State → State) (body : InFlight → State → List Byte) (s : State) : Res :=
  match s.recordUnder k with
  | none => .next s
  | some (e, en, j) =>
    if j.append < Config.positions then
      let t := s.journalled en j
      .next ((after e t).complete .done (body e t))
    else .fault .outsideArray

/-- Nothing beyond R114. -/
def noMore (_ : InFlight) (s : State) : State := s

/-- No body. -/
def noBody (_ : InFlight) (_ : State) : List Byte := []

/-- What a kind adds for its volume. -/
def forVolume (f : Vol → State → State) (e : InFlight) (s : State) : State :=
  match e.op.vol with
  | none => s
  | some v => f v s

/-- A body read from the record of the operation's volume. -/
def volumeBody (f : Volume → List Byte) (e : InFlight) (s : State) : List Byte :=
  match e.op.vol with
  | none => []
  | some v => ((s.vols[v]).map f).getD []

/-- Base sectors of both slots (R16). -/
def basesBody (x : Volume) : List Byte := half x.baseA ++ half x.baseB

/-- The slot now ACTIVE and its generation (R79, R82). -/
def activeBody (x : Volume) : List Byte :=
  match x.slotIn .active with
  | some sl => slotCode sl :: word (x.slot sl).gen
  | none => []

/-- The slot now STAGING (R66). -/
def stagingBody (x : Volume) : List Byte :=
  match x.slotIn .staging with
  | some sl => [slotCode sl]
  | none => []

/-- CREATE_ENTRY_COMPLETES (R16). -/
def execCreateEntryCompletes (s : State) : Res :=
  entryCompletes .createVolume noMore (volumeBody basesBody) s

/-- The waiters for the volume are removed with GONE (R18). -/
def afterDelete (v : Vol) (s : State) : State := s.removeWaiters (fun w => w.vol == v) .gone

/-- DELETE_ENTRY_COMPLETES (R18). -/
def execDeleteEntryCompletes (s : State) : Res := entryCompletes .deleteVolume (forVolume afterDelete) noBody s

/-- The three steps of R20 against the new writer mask. -/
def afterAccess (v : Vol) (s : State) : State :=
  match s.vols[v] with
  | none => s
  | some x =>
    let s1 := s.removeWaiters (fun w => w.vol == v && !inMask x.writers w.port) .denied
    match s1.claimOf v with
    | none => s1
    | some c =>
      match s1.claims[c] with
      | none => s1
      | some cl => if cl.state = .held ∧ inMask x.writers cl.holder = false then s1.revoke c .revoked else s1

/-- ACCESS_ENTRY_COMPLETES (R19, R20). -/
def execAccessEntryCompletes (s : State) : Res := entryCompletes .setAccess (forVolume afterAccess) noBody s

/-- The three steps of R139, while PINEN is asserted. -/
def afterPin (v : Vol) (s : State) : State :=
  if s.pinen then (s.removeWaiters (fun w => w.vol == v) .pinned).revokeVolume v .revoked else s

/-- PIN_ENTRY_COMPLETES (R138, R139). -/
def execPinEntryCompletes (s : State) : Res := entryCompletes .pin (forVolume afterPin) noBody s

/-- UNPIN_ENTRY_COMPLETES (R140). -/
def execUnpinEntryCompletes (s : State) : Res := entryCompletes .unpin noMore noBody s

/-- A fresh staging map: every sector UNKNOWN, every pointer 0 (R63). -/
def freshMap (n : Nat) : List MapEntry := List.replicate n { state := .unknown, ptr := 0 }

/-- The staging map is attached to the claim (R66). -/
def afterStage (e : InFlight) (s : State) : State :=
  match e.op.claim, e.op.vol with
  | some c, some v =>
    match s.vols[v] with
    | none => s
    | some x => s.onClaim c (fun cl => { cl with map := some (freshMap x.size) })
  | _, _ => s

/-- STAGE_ENTRY_COMPLETES (R9, R66). -/
def execStageEntryCompletes (s : State) : Res := entryCompletes .beginStage afterStage (volumeBody stagingBody) s

/-- The staging map is discarded (R79). -/
def afterCommit (e : InFlight) (s : State) : State :=
  match e.op.claim with
  | none => s
  | some c => s.onClaim c (fun cl => { cl with map := none })

/-- COMMIT_ENTRY_COMPLETES (R10, R79). -/
def execCommitEntryCompletes (s : State) : Res := entryCompletes .commit afterCommit (volumeBody activeBody) s

/-- ROLLBACK_ENTRY_COMPLETES (R11, R82). -/
def execRollbackEntryCompletes (s : State) : Res := entryCompletes .rollback noMore (volumeBody activeBody) s

/-! ### A journal entry program that fails (R115) -/

/-- A try fails: the tries used go up. -/
def State.countTry (s : State) : State := s.onFlight (fun e => { e with tries := e.tries + 1 })

/-- A DELETE_VOLUME whose record is lost leaves its volume as it was (R17). -/
def clearDeleting (e : InFlight) (s : State) : State :=
  if e.op.kind = .deleteVolume then forVolume (fun v t => t.onVol v (fun x => { x with deleting := false })) e s else s

/-- A record for the current sector is lost (R115): DEGRADED, ARRAY_FAULT, the directory as before the operation (R8). After
a DELETE_VOLUME its waiters are eligible again and grants follow its answer (R17, log entry 13). -/
def loseRecord (e : InFlight) (s : State) : State :=
  let s1 := (clearDeleting e { s with mode := .degraded }).finish .arrayFault []
  (if e.op.kind = .deleteVolume then s1.grantAll else s1).pick

/-- The failed program of a record at the append point of the current sector (R115). -/
def currentFaults (e : InFlight) (j : Journal) (s : State) : State :=
  let s1 := { s with
    store := s.store.spoilPosition j.sector j.append
    journal := some { j with append := j.append + 1 }
    skipped := countSkip s.skipped }
  if Config.maxTries ≤ e.tries + 1 ∨ Config.positions ≤ j.append + 1 then loseRecord e s1 else s1.countTry

/-- A record of a COMPACT is lost (R120), or one of a FORMAT (R133). -/
def loseOwn (e : InFlight) (s : State) : State :=
  if e.op.kind = .compact then { s with mode := .degraded }.complete .done [] else s.complete .arrayFault []

/-- The failed program of a record of a COMPACT or a FORMAT in its own sector (R115, R120). -/
def ownFaults (e : InFlight) (sector : JSector) (o : OwnSector) (s : State) : State :=
  let s1 := { s with store := s.store.spoilPosition sector o.pos, skipped := countSkip s.skipped }
  if Config.maxTries ≤ e.tries + 1 ∨ Config.positions ≤ o.pos + 1 then loseOwn e s1
  else s1.onFlight (fun f => { f with tries := f.tries + 1, own := some { o with pos := o.pos + 1 } })

/-- JOURNAL_WRITE_FAULT (R115, R120, R133). -/
def execJournalWriteFault (s : State) : Res :=
  match s.engine with
  | none => .next s
  | some e =>
    match e.phase with
    | .journaling sector =>
      match e.own with
      | some o => if o.pos < Config.positions then .next (ownFaults e sector o s) else .fault .outsideArray
      | none =>
        match s.journal with
        | none => .next s
        | some j => if j.append < Config.positions then .next (currentFaults e j s) else .fault .outsideArray
    | .none | .erasing _ | .programming _ _ | .verifying | .rowWriting => .next s

end Sys2Proof.Machine
end

