-- ==== Sys2Proof/Machine/JournalEvents.lean ====
section
/-! DEFINITION. COMPACT (R117 to R120), FORMAT (R133) and PROVISION (R151, R153): the ends of their phases and entries. -/

namespace Sys2Proof.Machine

/-- JOURNALING begins in a sector of the operation's own with a HEADER at position 0, sequence number 1 (R117, R118, R133). -/
def State.beginOwn (s : State) (sector : JSector) (epoch : Nat) (todo : List SnapItem) : State :=
  s.onFlight (fun e => { e with
    phase := .journaling sector
    entry := some { seq := 1, content := .header (BitVec.ofNat 32 epoch) }
    tries := 0
    own := some { pos := 0, seq := 1, written := 0, epoch := epoch, todo := todo } })

/-- The epoch after the current one (R118). -/
def nextEpoch (epoch : Nat) : Nat := if epoch = Config.wordMax then 1 else epoch + 1

/-- COMPACT_ERASE_END (R117, R120). -/
def execCompactEraseEnd (ok : Bool) (s : State) : Res :=
  match s.flightIs .compact, s.journal with
  | some e, some j =>
    match e.phase with
    | .erasing n =>
      if ok then
        .next ({ s with store := s.store.eraseSector n }.beginOwn j.sector.other (nextEpoch j.epoch) (snapshotItems s.vols))
      else .next ({ s with store := s.store.spoilSector n, mode := .degraded }.complete .done [])
    | .none | .programming _ _ | .verifying | .journaling _ | .rowWriting => .next s
  | _, _ => .next s

/-- The entry that a COMPACT or a FORMAT has under program in its own sector. -/
def State.ownUnder (s : State) (k : Kind) : Option (JSector × JEntry × OwnSector) :=
  match s.flightIs k with
  | none => none
  | some e =>
    match e.phase, e.entry, e.own with
    | .journaling sector, some en, some o => some (sector, en, o)
    | _, _, _ => none

/-- A record is a SNAP_END. -/
def isSnapEnd : JRecord → Bool
  | .snapEnd _ => true
  | .header _ | .create .. | .delete _ | .access .. | .pin _ | .unpin _ | .stage .. | .commit .. | .rollback _
  | .snapVol .. | .snapSlot .. => false

/-- A record is a HEADER. -/
def isHeader : JRecord → Bool
  | .header _ => true
  | .create .. | .delete _ | .access .. | .pin _ | .unpin _ | .stage .. | .commit .. | .rollback _
  | .snapVol .. | .snapSlot .. | .snapEnd _ => false

/-- An entry completes in the operation's own sector and the next item of the snapshot is begun (R118): its record is that of
the directory at this moment. -/
def ownAdvances (sector : JSector) (en : JEntry) (o : OwnSector) (item : SnapItem) (rest : List SnapItem) (s : State) : State :=
  { s with store := s.store.program (positionBase sector o.pos) (entryBytes en) }.onFlight (fun e => { e with
    entry := some { seq := BitVec.ofNat 32 (o.seq + 1), content := itemRecord s.vols (o.written + 1) item }
    tries := 0
    own := some { o with pos := o.pos + 1, seq := o.seq + 1, written := o.written + 1, todo := rest } })

/-- An entry other than the SNAP_END completes in the operation's own sector. -/
def ownCompletes (k : Kind) (which : JRecord → Bool) (s : State) : Res :=
  match s.ownUnder k with
  | none => .next s
  | some (sector, en, o) =>
    match o.todo with
    | [] => .next s
    | item :: rest =>
      if which en.content then
        if o.pos < Config.positions then .next (ownAdvances sector en o item rest s) else .fault .outsideArray
      else .next s

/-- The SNAP_END completes: the operation's own sector is current (R119, R133). -/
def ownSwitches (sector : JSector) (en : JEntry) (o : OwnSector) (s : State) : State :=
  { s with
    store := s.store.program (positionBase sector o.pos) (entryBytes en)
    journal := some { sector := sector, epoch := o.epoch, append := o.pos + 1, seq := o.seq + 1 } }

/-- SNAPSHOT_ENTRY_COMPLETES (R118). -/
def execSnapshotEntryCompletes (s : State) : Res := ownCompletes .compact (fun r => !isSnapEnd r) s

/-- COMPACT_SNAP_END_COMPLETES (R119). -/
def execCompactSnapEndCompletes (s : State) : Res :=
  match s.ownUnder .compact with
  | none => .next s
  | some (sector, en, o) =>
    if isSnapEnd en.content then
      if o.pos < Config.positions then .next ((ownSwitches sector en o s).complete .done []) else .fault .outsideArray
    else .next s

/-- The end of a FORMAT erase (R133): J1 follows J0, and JOURNALING into J0 follows J1. -/
def formatErased (n : Nat) (s : State) : State :=
  let s1 := { s with store := s.store.eraseSector n }
  if n = jsectorNumber .j0 then s1.enter (.erasing (jsectorNumber .j1))
  else { s1 with skipped := 0 }.beginOwn .j0 1 [.fin]

/-- FORMAT_ERASE_END (R133). -/
def execFormatEraseEnd (ok : Bool) (s : State) : Res :=
  match s.flightIs .format with
  | none => .next s
  | some e =>
    match e.phase with
    | .erasing n =>
      if ok then .next (formatErased n s)
      else .next ({ s with store := s.store.spoilSector n }.complete .arrayFault [])
    | .none | .programming _ _ | .verifying | .journaling _ | .rowWriting => .next s

/-- FORMAT_HEADER_COMPLETES (R133). -/
def execFormatHeaderCompletes (s : State) : Res := ownCompletes .format isHeader s

/-- FORMAT_SNAP_END_COMPLETES (R133). -/
def execFormatSnapEndCompletes (s : State) : Res :=
  match s.ownUnder .format with
  | none => .next s
  | some (sector, en, o) =>
    if isSnapEnd en.content then
      if o.pos < Config.positions then
        .next ({ ownSwitches sector en o s with mode := .normal }.complete .done [])
      else .fault .outsideArray
    else .next s

/-- The row a PROVISION writes (R151, R183). -/
def provisionedRow (ps : List Byte) : Row := rowOf (provAdmin ps) (provLease ps) (provErase ps) (provProgram ps)

/-- The four values written (R151). -/
def provisionBody (ps : List Byte) : List Byte := [provAdmin ps, provLease ps, provErase ps, provProgram ps]

/-- The row and what follows from it (R148). -/
def State.setRow (s : State) (r : Row) (st : ProvState) : State := { s with row := r, prov := st, values := valuesOf st r }

/-- ROW_WRITE_END (R151, R153). -/
def execRowWriteEnd (ok : Bool) (s : State) : Res :=
  match s.flightIs .provision with
  | none => .next s
  | some e =>
    match e.phase with
    | .rowWriting =>
      if ok then .next ((s.setRow (provisionedRow e.op.params) .frozen).complete .done (provisionBody e.op.params))
      else .next ((s.setRow .torn .damaged).complete .arrayFault [])
    | .none | .erasing _ | .programming _ _ | .verifying | .journaling _ => .next s

end Sys2Proof.Machine
end

