-- ==== Sys2Proof/Machine/LineEvents.lean ====
section
/-! DEFINITION. Leases (R52, R53), the PINEN line (R141, R144), port resets (R171 to R173), device reset, power and start-up
(R106, R121, R125, R147, R174). -/

namespace Sys2Proof.Machine

/-! ### Leases -/

/-- The lease of a claim runs (R52). -/
def Claim.runs (cl : Claim) : Bool := cl.state == .held && cl.pending == 0

/-- A running lease reaches 0: the claim ends with EXPIRED (R53). -/
def State.expire (s : State) (c : ClaimIx) : State := (s.onClaim c (fun cl => { cl with lease := 0 })).revoke c .expired

/-- LEASE_UNIT_END (R52). The unit that brings a running lease to 0 is its expiry, in the same moment (R53, log entry 12). -/
def execLeaseUnitEnd (c : ClaimIx) (s : State) : Res :=
  match s.claims[c] with
  | none => .next s
  | some cl =>
    if cl.runs then
      if cl.lease ≤ 1 then .next (s.expire c) else .next (s.setClaim c (some { cl with lease := cl.lease - 1 }))
    else .next s

/-- LEASE_EXPIRY (R53): the end of the unit that brings a running lease to 0. A lease above one unit does not expire (log
entry 12). -/
def execLeaseExpiry (c : ClaimIx) (s : State) : Res :=
  match s.claims[c] with
  | none => .next s
  | some cl => if cl.runs ∧ cl.lease ≤ 1 then .next (s.expire c) else .next s

/-! ### PINEN -/

/-- Step 2 of R141 for one volume. -/
def State.revokeIfPinned (s : State) (v : Vol) : State :=
  match s.vols[v] with
  | none => s
  | some x => if x.pinned then s.revokeVolume v .revoked else s

/-- PINEN_ASSERTION (R135, R141): waiters of pinned volumes in list order, then claims in increasing volume index. -/
def execPinenAssertion (s : State) : Res :=
  let s1 := { s with pinen := true }
  .next ((List.finRange 32).foldl State.revokeIfPinned (s1.removeWaiters s1.waiterPinned .pinned))

/-- PINEN_DEASSERTION (R144). -/
def execPinenDeassertion (s : State) : Res := .next { s with pinen := false }

/-! ### Port reset -/

/-- The pending operation count of a record's claim goes down by one (R87). -/
def State.unbind (s : State) (o : Op) : State :=
  match o.claim with
  | none => s
  | some c => s.onClaim c (fun cl => { cl with pending := cl.pending - 1 })

/-- The FIFO of the port is emptied without responses (R87). -/
def State.dropFifo (s : State) (p : Port) : State := (s.fifos[p]).foldl State.unbind (s.setFifo p [])

/-- The port's operation in flight is marked for discard (R104). -/
def State.markDiscard (s : State) (p : Port) : State :=
  s.onFlight (fun e => if e.port = some p then { e with discard := true } else e)

/-- The port's four views are closed (R23). -/
def State.closeViews (s : State) (p : Port) : State := { s with views := s.views.set p (Vector.replicate 4 none) }

/-- The port's HELD claim on a volume ends without a notice (R58). -/
def State.dropClaim (s : State) (p : Port) (v : Vol) : State :=
  match s.heldClaim p v with
  | none => s
  | some c => s.revoke c .silent

/-- PNRST_ASSERT (R171, R111): the HPI, the views, the FIFO, the discard mark, then the waits and the HELD claims in
increasing volume index, each with its grants (R58). -/
def execPnrstAssert (p : Port) (s : State) : Res :=
  let s1 := (((s.setHpi p (Hpi.cleared true s.hpi[p].sel)).closeViews p).dropFifo p).markDiscard p
  let s2 := { s1 with waits := s1.waits.filter (fun w => w.port != p) }
  .next ((List.finRange 32).foldl (fun t v => t.dropClaim p v) s2)

/-- PNRST_DEASSERT (R173). -/
def execPnrstDeassert (p : Port) (s : State) : Res := .next (s.setHpi p { s.hpi[p] with rst := false })

/-! ### Device reset and power -/

/-- The position of the entry under program: the operation's own, or the append point. -/
def State.programPosition (s : State) (e : InFlight) : Option Nat :=
  match e.own with
  | some o => some o.pos
  | none => s.journal.map Journal.append

/-- The row a cut ROW_WRITING leaves (R154). -/
def cutRow (cut : Cut) (e : InFlight) (r : Row) : Row :=
  match cut with
  | .before => r
  | .during => .torn
  | .after => provisionedRow e.op.params

/-- The operation in flight is aborted: the work under way leaves the content R2 and R154 give (R106). A journal program of
which no byte was programmed leaves its position as it was (R126, log entry 10). -/
def State.abort (s : State) (cut : Cut) : State :=
  match s.engine with
  | none => s
  | some e =>
    match e.phase with
    | .none | .verifying => s
    | .erasing n => { s with store := s.store.spoilSector n }
    | .programming n pg => { s with store := s.store.spoilPage n pg }
    | .journaling j =>
      if cut = .before then s
      else
        match s.programPosition e with
        | none => s
        | some k => { s with store := s.store.spoilPosition j k }
    | .rowWriting => { s with row := cutRow cut e s.row }

/-- RESET_ASSERT (R174, R106). -/
def execResetAssert (cut : Cut) (s : State) : Res := .next { (s.abort cut).clearVolatile with resetLine := true }

/-- RESET_DEASSERT (R121, R112): start-up begins, and replay with the skipped-entry counter at 0. -/
def execResetDeassert (s : State) : Res :=
  if s.resetLine then .next { s with resetLine := false, skipped := 0 } else .next s

/-- One more power-on (R2). -/
def Store.powerOn (st : Store) : Store := { st with powerOns := st.powerOns + 1 }

/-- POWER_ON (R121, R174): the device-reset values, and start-up begins. -/
def execPowerOn (s : State) : Res :=
  let t := (s.abort .during).clearVolatile
  .next { t with powered := true, skipped := 0, store := t.store.powerOn }

/-- POWER_LOSS (R106): all volatile state is lost. -/
def execPowerLoss (cut : Cut) (s : State) : Res := .next { (s.abort cut).clearVolatile with powered := false }

/-- The provisioning state is derived from the row (R147). -/
def State.deriveRow (s : State) : State := s.setRow s.row (deriveProv s.row)

/-- The volatile fields start at their empty values (R7, R23, R59). -/
def State.emptyClaims (s : State) : State :=
  { s with
    views := Vector.replicate 4 (Vector.replicate 4 none)
    claims := Vector.replicate 4 none
    waits := [] }

/-- The end of replay (R125, R129). -/
def State.started (s : State) : State :=
  match replay s.store with
  | none => { s with vols := Vector.replicate 32 none, journal := none, skipped := 0, mode := .unformatted }
  | some r =>
    ({ s with vols := r.dir, journal := some r.journal, skipped := r.skipped, mode := .normal }.compactionCheck).pick

/-- START_UP_END (R121, R125, R147), while start-up is under way. -/
def execStartUpEnd (s : State) : Res :=
  if s.powered ∧ s.resetLine = false ∧ s.mode = .starting then .next s.deriveRow.emptyClaims.started else .next s

end Sys2Proof.Machine
end

