-- ==== Sys2Proof/Machine/PortFrames.lean ====
section
/-! DEFINITION. The meanings of the frames that carry no request of their own: STATUS, FETCH, unknown kind, and a SUBMIT frame
given by its bytes. -/

namespace Sys2Proof.Machine

/-- STATUS_FRAME (R160): `extra` follows the kind byte and is ignored. -/
def execStatusFrame (p : Port) (m : Moment) (extra : List Byte) (s : State) : Res :=
  frameStep p m (statusKind :: extra) (finishStatus p extra.length) s

/-- FETCH_FRAME (R168, R169): what is clocked after the kind byte is ignored but for its length. -/
def execFetchFrame (p : Port) (m : Moment) (x : Clocked) (s : State) : Res :=
  frameStep p m (fetchKind :: x.bytes) (finishFetch p x.length) s

/-- UNKNOWN_FRAME (R160): the select period by all its whole bytes, the first being its kind byte (log entry 19). -/
def execUnknownFrame (p : Port) (m : Moment) (bytes : List Byte) (s : State) : Res :=
  frameStep p m bytes (finishRaw p bytes) s

/-- SUBMIT_REJECTED (R162): a SUBMIT frame by the bytes after its kind byte; they decide whether it is rejected (log
entry 19). -/
def execSubmitRejected (p : Port) (m : Moment) (bytes : List Byte) (s : State) : Res :=
  frameStep p m (submitKind :: bytes) (finishRawSubmit p bytes) s

end Sys2Proof.Machine
end

