-- ==== Sys2Proof/Machine/Requests.lean ====
section
/-! DEFINITION. The meanings of the 21 requests. Each is a well-formed SUBMIT frame of its kind: the frame outcome and the
mode check are those of `submitRequest`, the checks and answers of the kind stand in Machine/Frames.lean, and the start of an
engine request in Machine/Engine.lean. -/

namespace Sys2Proof.Machine

/-- QUERY_DEVICE (R109). -/
def execQueryDevice (f : Submit) (s : State) : Res := submitFrame .queryDevice f s

/-- QUERY_VOLUME (R21). -/
def execQueryVolume (f : Submit) (s : State) : Res := submitFrame .queryVolume f s

/-- CREATE_VOLUME (R15, and R14 and R16 at its start). -/
def execCreateVolume (f : Submit) (s : State) : Res := submitFrame .createVolume f s

/-- DELETE_VOLUME (R15, and R17 at its start). -/
def execDeleteVolume (f : Submit) (s : State) : Res := submitFrame .deleteVolume f s

/-- SET_ACCESS (R15, and R19 at its start). -/
def execSetAccess (f : Submit) (s : State) : Res := submitFrame .setAccess f s

/-- PIN (R137, and R138 at its start). -/
def execPin (f : Submit) (s : State) : Res := submitFrame .pin f s

/-- UNPIN (R137, and R140 at its start). -/
def execUnpin (f : Submit) (s : State) : Res := submitFrame .unpin f s

/-- FORMAT (R132, and R133 at its start). -/
def execFormat (f : Submit) (s : State) : Res := submitFrame .format f s

/-- PROVISION (R150, and R151 at its start). -/
def execProvision (f : Submit) (s : State) : Res := submitFrame .provision f s

/-- READ (R24 to R27, R100). -/
def execRead (f : Submit) (s : State) : Res := submitFrame .read f s

/-- OPEN_VIEW (R31, R32). -/
def execOpenView (f : Submit) (s : State) : Res := submitFrame .openView f s

/-- CLOSE_VIEW (R33). -/
def execCloseView (f : Submit) (s : State) : Res := submitFrame .closeView f s

/-- CLAIM (R40 to R43). -/
def execClaim (f : Submit) (s : State) : Res := submitFrame .claim f s

/-- RELEASE (R48, R49). -/
def execRelease (f : Submit) (s : State) : Res := submitFrame .release f s

/-- RENEW (R50). -/
def execRenew (f : Submit) (s : State) : Res := submitFrame .renew f s

/-- BEGIN_STAGE (R60, and R61, R13 and R66 at its start). -/
def execBeginStage (f : Submit) (s : State) : Res := submitFrame .beginStage f s

/-- ERASE (R60, and R61 and R68 at its start). -/
def execErase (f : Submit) (s : State) : Res := submitFrame .erase f s

/-- PROGRAM (R60, R71, and R61 and R72 at its start). -/
def execProgram (f : Submit) (s : State) : Res := submitFrame .program f s

/-- READ_STAGED (R75, R76). -/
def execReadStaged (f : Submit) (s : State) : Res := submitFrame .readStaged f s

/-- COMMIT (R60, and R61 and R77 at its start). -/
def execCommit (f : Submit) (s : State) : Res := submitFrame .commit f s

/-- ROLLBACK (R60, and R61 and R82 at its start). -/
def execRollback (f : Submit) (s : State) : Res := submitFrame .rollback f s

end Sys2Proof.Machine
end

