-- ==== Sys2Proof/Machine/Dispatch.lean ====
section
/-! DEFINITION. The dispatch of a command to its meaning, one arm for each row of spec/opcode_table.json. -/

namespace Sys2Proof.Machine

/-- The effect of a command on everything but the queue of waiting commands. -/
def exec (i : Instr) (s : State) : Host.Outcome State Fault Refusal :=
  match i with
  | .statusFrame p m x => Sys2Proof.Machine.execStatusFrame p m x s
  | .fetchFrame p m x => Sys2Proof.Machine.execFetchFrame p m x s
  | .unknownFrame p m b => Sys2Proof.Machine.execUnknownFrame p m b s
  | .submitRejected p m b => Sys2Proof.Machine.execSubmitRejected p m b s
  | .queryDevice f => Sys2Proof.Machine.execQueryDevice f s
  | .queryVolume f => Sys2Proof.Machine.execQueryVolume f s
  | .createVolume f => Sys2Proof.Machine.execCreateVolume f s
  | .deleteVolume f => Sys2Proof.Machine.execDeleteVolume f s
  | .setAccess f => Sys2Proof.Machine.execSetAccess f s
  | .pin f => Sys2Proof.Machine.execPin f s
  | .unpin f => Sys2Proof.Machine.execUnpin f s
  | .format f => Sys2Proof.Machine.execFormat f s
  | .provision f => Sys2Proof.Machine.execProvision f s
  | .read f => Sys2Proof.Machine.execRead f s
  | .openView f => Sys2Proof.Machine.execOpenView f s
  | .closeView f => Sys2Proof.Machine.execCloseView f s
  | .claim f => Sys2Proof.Machine.execClaim f s
  | .release f => Sys2Proof.Machine.execRelease f s
  | .renew f => Sys2Proof.Machine.execRenew f s
  | .beginStage f => Sys2Proof.Machine.execBeginStage f s
  | .erase f => Sys2Proof.Machine.execErase f s
  | .program f => Sys2Proof.Machine.execProgram f s
  | .readStaged f => Sys2Proof.Machine.execReadStaged f s
  | .commit f => Sys2Proof.Machine.execCommit f s
  | .rollback f => Sys2Proof.Machine.execRollback f s
  | .eraseCompletion ok => Sys2Proof.Machine.execEraseCompletion ok s
  | .programCompletion ok => Sys2Proof.Machine.execProgramCompletion ok s
  | .commitVerifyEnd => Sys2Proof.Machine.execCommitVerifyEnd s
  | .createEntryCompletes => Sys2Proof.Machine.execCreateEntryCompletes s
  | .deleteEntryCompletes => Sys2Proof.Machine.execDeleteEntryCompletes s
  | .accessEntryCompletes => Sys2Proof.Machine.execAccessEntryCompletes s
  | .pinEntryCompletes => Sys2Proof.Machine.execPinEntryCompletes s
  | .unpinEntryCompletes => Sys2Proof.Machine.execUnpinEntryCompletes s
  | .stageEntryCompletes => Sys2Proof.Machine.execStageEntryCompletes s
  | .commitEntryCompletes => Sys2Proof.Machine.execCommitEntryCompletes s
  | .rollbackEntryCompletes => Sys2Proof.Machine.execRollbackEntryCompletes s
  | .journalWriteFault => Sys2Proof.Machine.execJournalWriteFault s
  | .compactEraseEnd ok => Sys2Proof.Machine.execCompactEraseEnd ok s
  | .snapshotEntryCompletes => Sys2Proof.Machine.execSnapshotEntryCompletes s
  | .compactSnapEndCompletes => Sys2Proof.Machine.execCompactSnapEndCompletes s
  | .formatEraseEnd ok => Sys2Proof.Machine.execFormatEraseEnd ok s
  | .formatHeaderCompletes => Sys2Proof.Machine.execFormatHeaderCompletes s
  | .formatSnapEndCompletes => Sys2Proof.Machine.execFormatSnapEndCompletes s
  | .rowWriteEnd ok => Sys2Proof.Machine.execRowWriteEnd ok s
  | .leaseUnitEnd c => Sys2Proof.Machine.execLeaseUnitEnd c s
  | .leaseExpiry c => Sys2Proof.Machine.execLeaseExpiry c s
  | .pinenAssertion => Sys2Proof.Machine.execPinenAssertion s
  | .pinenDeassertion => Sys2Proof.Machine.execPinenDeassertion s
  | .pnrstAssert p => Sys2Proof.Machine.execPnrstAssert p s
  | .pnrstDeassert p => Sys2Proof.Machine.execPnrstDeassert p s
  | .resetAssert cut => Sys2Proof.Machine.execResetAssert cut s
  | .resetDeassert => Sys2Proof.Machine.execResetDeassert s
  | .powerOn => Sys2Proof.Machine.execPowerOn s
  | .powerLoss cut => Sys2Proof.Machine.execPowerLoss cut s
  | .startUpEnd => Sys2Proof.Machine.execStartUpEnd s

end Sys2Proof.Machine
end

