-- ==== Sys2Proof/Safety.lean ====
section
/-! DEFINITION. What the manual promises of every state of the part, each law as a predicate over the whole state, and the
words the statements share. -/

namespace Sys2Proof.Machine

/-! ### Frames -/

/-- A frame command at another moment of its select period; an event stays as it is. -/
def atMoment (m : Moment) (c : Instr) : Instr :=
  match c with
  | .statusFrame p _ x => .statusFrame p m x
  | .fetchFrame p _ x => .fetchFrame p m x
  | .unknownFrame p _ b => .unknownFrame p m b
  | .submitRejected p _ b => .submitRejected p m b
  | .queryDevice f => .queryDevice { f with moment := m }
  | .queryVolume f => .queryVolume { f with moment := m }
  | .createVolume f => .createVolume { f with moment := m }
  | .deleteVolume f => .deleteVolume { f with moment := m }
  | .setAccess f => .setAccess { f with moment := m }
  | .pin f => .pin { f with moment := m }
  | .unpin f => .unpin { f with moment := m }
  | .format f => .format { f with moment := m }
  | .provision f => .provision { f with moment := m }
  | .read f => .read { f with moment := m }
  | .openView f => .openView { f with moment := m }
  | .closeView f => .closeView { f with moment := m }
  | .claim f => .claim { f with moment := m }
  | .release f => .release { f with moment := m }
  | .renew f => .renew { f with moment := m }
  | .beginStage f => .beginStage { f with moment := m }
  | .erase f => .erase { f with moment := m }
  | .program f => .program { f with moment := m }
  | .readStaged f => .readStaged { f with moment := m }
  | .commit f => .commit { f with moment := m }
  | .rollback f => .rollback { f with moment := m }
  | .eraseCompletion ok => .eraseCompletion ok
  | .programCompletion ok => .programCompletion ok
  | .commitVerifyEnd => .commitVerifyEnd
  | .createEntryCompletes => .createEntryCompletes
  | .deleteEntryCompletes => .deleteEntryCompletes
  | .accessEntryCompletes => .accessEntryCompletes
  | .pinEntryCompletes => .pinEntryCompletes
  | .unpinEntryCompletes => .unpinEntryCompletes
  | .stageEntryCompletes => .stageEntryCompletes
  | .commitEntryCompletes => .commitEntryCompletes
  | .rollbackEntryCompletes => .rollbackEntryCompletes
  | .journalWriteFault => .journalWriteFault
  | .compactEraseEnd ok => .compactEraseEnd ok
  | .snapshotEntryCompletes => .snapshotEntryCompletes
  | .compactSnapEndCompletes => .compactSnapEndCompletes
  | .formatEraseEnd ok => .formatEraseEnd ok
  | .formatHeaderCompletes => .formatHeaderCompletes
  | .formatSnapEndCompletes => .formatSnapEndCompletes
  | .rowWriteEnd ok => .rowWriteEnd ok
  | .leaseUnitEnd i => .leaseUnitEnd i
  | .leaseExpiry i => .leaseExpiry i
  | .pinenAssertion => .pinenAssertion
  | .pinenDeassertion => .pinenDeassertion
  | .pnrstAssert p => .pnrstAssert p
  | .pnrstDeassert p => .pnrstDeassert p
  | .resetAssert x => .resetAssert x
  | .resetDeassert => .resetDeassert
  | .powerOn => .powerOn
  | .powerLoss x => .powerLoss x
  | .startUpEnd => .startUpEnd

/-- The bytes the host shifts in for a frame command, from the kind byte on (R160, R161); none for an event. -/
def wireOf (c : Instr) : List Byte :=
  match c with
  | .statusFrame _ _ x => 0x00 :: x
  | .fetchFrame _ _ x => 0x02 :: x.bytes
  | .unknownFrame _ _ b => b
  | .submitRejected _ _ b => 0x01 :: b
  | _ =>
    match c.requestOf with
    | some (k, f) => submitWire (requestOfFrame k f) f.extra
    | none => []

/-- The part when a whole SUBMIT frame of a request is evaluated: the select period is over, and the port has shifted out its
status byte and then 0x00 (R161). -/
def State.framed (s : State) (f : Submit) : State :=
  s.closeFrame f.port (s.statusByte f.port :: zeros (f.params.length + 7 + f.extra.length))

/-- The part when the request of a whole frame has just been taken: the outcome is TAKEN and the lease of a HELD claim of the
port on the named volume is reloaded (R51, R163). -/
def State.taken (s : State) (k : Kind) (f : Submit) : State :=
  ((s.framed f).setOutcome f.port .taken).reload f.port k f.volume

/-- A whole frame of a request is served, well formed and neither REJECTED nor FULL (R162, R163). -/
abbrev State.takes (s : State) (k : Kind) (f : Submit) : Prop :=
  s.serves f.port = true ∧ f.moment = .whole ∧ s.mode ≠ .starting ∧ f.params.length ≤ 262
    ∧ need k f.port f.volume f.params s ≤ s.freeEntries f.port
    ∧ (isEngineKind k = true → s.fifos[f.port].length < Config.fifoEntries)

/-- The answer to the request of a frame. -/
def responseTo (f : Submit) (k : Kind) (st : Status) (body : List Byte) : Response :=
  { tag := f.tag, kind := k, status := st, body := body }

/-- What the ports hold after responses have joined the queue of one of them, in order (R166). -/
def State.adds (s : State) (p : Port) (rs : List Response) : Vector Hpi 4 :=
  s.hpi.set p { s.hpi[p] with queue := s.hpi[p].queue ++ rs }

/-- What the ports hold after each of some waiters has been answered with its CLAIM tag, in list order (R47). -/
def State.told (s : State) (st : Status) (ws : List Waiter) : Vector Hpi 4 :=
  Vector.ofFn (fun q => { s.hpi[q] with
    queue := s.hpi[q].queue ++ (ws.filter (fun w => w.port == q)).map (fun w =>
      ({ tag := w.tag, kind := .claim, status := st, body := [] } : Response)) })

/-! ### Journal entries -/

/-- An operation of a kind on a volume has an entry under program at the append point (R97, R114). -/
abbrev State.writes (s : State) (k : Kind) (e : InFlight) (v : Vol) (en : JEntry) (j : Journal) : Prop :=
  s.engine = some e ∧ e.op.kind = k ∧ e.op.vol = some v ∧ (∃ js, e.phase = .journaling js) ∧ e.own = none
    ∧ e.entry = some en ∧ s.journal = some j ∧ j.append < Config.positions

/-- The part after an entry of a directory-changing operation has completed, with the directory it leaves (R114, R116). -/
def State.recorded (s : State) (en : JEntry) (j : Journal) (d : Directory) : State :=
  { s with
    store := s.store.program (positionBase j.sector j.append) (entryBytes en)
    journal := some { j with append := j.append + 1, seq := j.seq + 1 }
    vols := d
    compactSlot := s.compactSlot || Config.positions - (j.append + 1) ≤ Config.compactThreshold }

/-! ### Parameters that a request accepts -/

/-- The parameters of an administrative request that R15, R137 and R179 accept. -/
def adminParams (k : Kind) (ps : List Byte) : Bool :=
  match k with
  | .createVolume => ps.length == 5 && 1 ≤ (byteAt ps 2).toNat && (byteAt ps 2).toNat ≤ 64
      && (byteAt ps 3).toNat < 16 && (byteAt ps 4).toNat < 16
  | .setAccess => ps.length == 2 && (byteAt ps 0).toNat < 16 && (byteAt ps 1).toNat < 16
  | .deleteVolume | .pin | .unpin => ps.isEmpty
  | .queryDevice | .queryVolume | .format | .provision | .read | .openView | .closeView | .claim | .release | .renew
  | .beginStage | .erase | .program | .readStaged | .commit | .rollback | .compact => false

/-- The parameters of a staging request that R60, R68, R71 and R179 accept. -/
def stagingParams (k : Kind) (ps : List Byte) : Bool :=
  match k with
  | .beginStage | .rollback => ps.isEmpty
  | .erase => ps.length == 1 && (byteAt ps 0).toNat ≤ 63
  | .program => 6 ≤ ps.length && (wordAt ps 0).toNat % 256 == 0 && 1 ≤ (halfAt ps 4).toNat && (halfAt ps 4).toNat ≤ 256
      && ps.length == 6 + (halfAt ps 4).toNat
  | .commit => ps.length == 8
  | .queryDevice | .queryVolume | .createVolume | .deleteVolume | .setAccess | .pin | .unpin | .format | .provision
  | .read | .openView | .closeView | .claim | .release | .renew | .readStaged | .compact => false

/-- The parameters of a PROVISION that R150 and R179 accept. -/
def provisionParams (ps : List Byte) : Bool :=
  ps.length == 4 && 1 ≤ (byteAt ps 0).toNat && (byteAt ps 0).toNat ≤ 15 && 1 ≤ (byteAt ps 1).toNat
    && (byteAt ps 2).toNat ≤ 16 && (byteAt ps 3).toNat ≤ 4

/-! ### Laws of one state -/

/-- R156, R157, R169: a frame is in progress only while the port drives PnSDO, and the response that a FETCH has selected is still
the head of the queue. -/
abbrev State.frameLaw (s : State) : Prop :=
  ∀ p : Port, ∀ f ∈ s.hpi[p].frame, s.drivesSdo p = true
    ∧ ∀ r ∈ f.selected, f.bytes.head? = some fetchKind ∧ s.hpi[p].queue.head? = some r

/-- R158: held responses and reservations of a port never exceed its 8 entries. -/
abbrev State.entryLaw (s : State) : Prop := ∀ p : Port, s.held p + s.reservations p ≤ Config.queueEntries

/-- The most that the suspend count of an operation can stand at: the budget of the class of its phase (R102). The count of an
erase stays through the JOURNALING that follows it; the phases that occupy no plane follow nothing that counts. -/
def InFlight.suspendBound (e : InFlight) : Nat :=
  match e.phase with
  | .erasing _ | .journaling _ => e.eraseBudget
  | .programming _ _ => e.programBudget
  | .none | .verifying | .rowWriting => 0

/-- The ranges of R85, R102 and R112: FIFOs of at most 4 records, an append point within the sector, a counter that
saturates, and a suspend count within the budget of the phase. -/
abbrev State.rangeLaw (s : State) : Prop :=
  (∀ p : Port, s.fifos[p].length ≤ Config.fifoEntries)
    ∧ (∀ j ∈ s.journal, j.append ≤ Config.positions)
    ∧ s.skipped ≤ Config.skippedMax
    ∧ (∀ e ∈ s.engine, e.suspends ≤ e.suspendBound)

/-- A part without power or under RESET is in STARTING; in STARTING every volatile item is empty (R7, R23, R59, R88,
R121). -/
abbrev State.startingLaw (s : State) : Prop :=
  (s.powered = false ∨ s.resetLine = true → s.mode = .starting)
    ∧ (s.mode = .starting →
      s.vols = Vector.replicate 32 none ∧ s.views = Vector.replicate 4 (Vector.replicate 4 none)
        ∧ s.claims = Vector.replicate 4 none ∧ s.waits = [] ∧ s.fifos = Vector.replicate 4 []
        ∧ s.compactSlot = false ∧ s.engine = none ∧ s.journal = none)

/-- In UNFORMATTED no volume is in use, no claim, wait or view exists, there is no current journal sector, and only FORMAT
and PROVISION wait or are in flight (R37, R59, R112, R128, R130). -/
abbrev State.unformattedLaw (s : State) : Prop :=
  s.mode = .unformatted →
    s.vols = Vector.replicate 32 none ∧ s.views = Vector.replicate 4 (Vector.replicate 4 none)
      ∧ s.claims = Vector.replicate 4 none ∧ s.waits = [] ∧ s.journal = none
      ∧ (∀ p : Port, ∀ o ∈ s.fifos[p], o.kind = .format ∨ o.kind = .provision)
      ∧ (∀ e ∈ s.engine, e.op.kind = .format ∨ e.op.kind = .provision)

/-- The two laws of the modes in which no volume exists. -/
abbrev State.modeLaw (s : State) : Prop := s.startingLaw ∧ s.unformattedLaw

/-- R90: outside STARTING an idle engine has no work. -/
abbrev State.idleLaw (s : State) : Prop := s.engine = none → s.mode ≠ .starting → s.work = 0

/-- R38: no two Claim Table entries name one volume. -/
abbrev State.uniqueLaw (s : State) : Prop :=
  ∀ c d : ClaimIx, ∀ x ∈ s.claims[c], ∀ y ∈ s.claims[d], x.vol = y.vol → c = d

/-- R45: the wait list holds at most 8 entries, never two with one port and volume, and never one whose port holds the claim
on its volume. -/
abbrev State.waitLaw (s : State) : Prop :=
  s.waits.length ≤ Config.waitEntries
    ∧ (s.waits.map (fun w => (w.port, w.vol))).Nodup
    ∧ ∀ w ∈ s.waits, ∀ c : ClaimIx, ∀ x ∈ s.claims[c], ¬(x.vol = w.vol ∧ x.holder = w.port)

/-- R145: while PINEN is asserted no HELD claim and no waiter names a pinned volume. -/
abbrev State.pinLaw (s : State) : Prop :=
  s.pinen = true → ∀ v : Vol, ∀ x ∈ s.vols[v], x.pinned = true →
    (∀ c : ClaimIx, ∀ cl ∈ s.claims[c], cl.vol = v → cl.state ≠ .held) ∧ ∀ w ∈ s.waits, w.vol ≠ v

/-- The record under program for the current sector is one that its operation writes (R114). -/
def recordFits (op : Op) : JRecord → Bool
  | .create b .. => op.kind == .createVolume && op.vol.map volByte == some b
  | .delete b => op.kind == .deleteVolume && op.vol.map volByte == some b
  | .access b .. => op.kind == .setAccess && op.vol.map volByte == some b
  | .pin b => op.kind == .pin && op.vol.map volByte == some b
  | .unpin b => op.kind == .unpin && op.vol.map volByte == some b
  | .stage b _ => op.kind == .beginStage && op.vol.map volByte == some b
  | .commit b .. => op.kind == .commit && op.vol.map volByte == some b
  | .rollback b => op.kind == .rollback && op.vol.map volByte == some b
  | .header _ | .snapVol .. | .snapSlot .. | .snapEnd _ => false

/-- R114: the operation in flight writes its own record. -/
abbrev State.recordLaw (s : State) : Prop :=
  ∀ e ∈ s.engine, e.own = none → ∀ en ∈ e.entry, recordFits e.op en.content = true

/-- A view of a volume is open. -/
def State.viewed (s : State) (v : Vol) : Bool := s.openViews.any (fun w => w.vol == v)

/-- R17 and R13 while their entry is under program: a volume under deletion has its flag set and no claim or view, and the
target of a STAGE is not ACTIVE and no view holds it. -/
abbrev State.guardLaw (s : State) : Prop :=
  ∀ e ∈ s.engine, e.own = none → ∀ en ∈ e.entry, ∀ v ∈ e.op.vol, ∀ x ∈ s.vols[v],
    (e.op.kind = .deleteVolume → x.deleting = true ∧ s.claimOf v = none ∧ s.viewed v = false)
      ∧ ∀ b c, en.content = .stage b c → ∀ sl ∈ slotOfCode c, (x.slot sl).state ≠ .active ∧ s.viewCount v sl = 0

/-- R38: every claim names an in-use volume. -/
abbrev State.claimedLaw (s : State) : Prop := ∀ c : ClaimIx, ∀ cl ∈ s.claims[c], (s.vols[cl.vol]).isSome = true

/-- R22: an open view names an in-use volume and a slot that is ACTIVE, PREVIOUS or STALE, with its generation and image
length. -/
abbrev State.viewLaw (s : State) : Prop :=
  ∀ p : Port, ∀ h : Handle, ∀ w ∈ s.views[p][h],
    ∃ x ∈ s.vols[w.vol],
      ((x.slot w.slot).state = .active ∨ (x.slot w.slot).state = .previous ∨ (x.slot w.slot).state = .stale)
      ∧ (x.slot w.slot).gen = w.gen ∧ (x.slot w.slot).len = w.len

/-- The fields of one slot are those its state calls for (R5), and its generation is none above the counter (R4). -/
abbrev SlotRec.sound (r : SlotRec) (counter : Nat) : Prop :=
  ((r.state = .active ∨ r.state = .previous) → r.image.isSome = true)
    ∧ ((r.state = .empty ∨ r.state = .staging) → r.image = none)
    ∧ (∀ i ∈ r.image, 1 ≤ i.gen ∧ i.gen ≤ counter)

/-- R5 and R10: the relation the two slots of a volume keep. -/
abbrev Volume.sound (x : Volume) : Prop :=
  x.slotA.sound x.genCounter ∧ x.slotB.sound x.genCounter
    ∧ (x.slotA.state = x.slotB.state → x.slotA.state = .empty ∨ x.slotA.state = .stale)
    ∧ (x.slotA.state = .previous → x.slotB.state = .active)
    ∧ (x.slotB.state = .previous → x.slotA.state = .active)
    ∧ (x.slotA.gen = x.slotB.gen → x.slotA.gen = 0)

/-- R5: every in-use volume is sound. -/
abbrev State.slotLaw (s : State) : Prop := ∀ v : Vol, ∀ x ∈ s.vols[v], x.sound

/-! ### The law of the journal (R128) -/

/-- A slot of the running part beside that slot in the journal: the same, or STALE by the end of a session that the journal
still shows as STAGING (R128). -/
abbrev SlotRec.follows (r q : SlotRec) : Prop := r = q ∨ (q.state = .staging ∧ r = { state := .stale, image := none })

/-- A running volume beside that volume in the journal: the durable fields are the same, slot by slot as `follows` says. -/
abbrev Volume.follows (x y : Volume) : Prop :=
  x.slotA.follows y.slotA ∧ x.slotB.follows y.slotB
    ∧ { x with slotA := y.slotA, slotB := y.slotB, deleting := y.deleting } = y

/-- R128: the directory of the running part beside the one that the journal gives. -/
abbrev followsJournal (d e : Directory) : Prop :=
  ∀ v : Vol, (d[v]).isSome = (e[v]).isSome ∧ ∀ x ∈ d[v], ∀ y ∈ e[v], x.follows y

/-- What every volume of a part keeps that the journal rests on: its slots are sound, slot A is the first to hold an image
(R13), both slots lie in the volume space of their planes (R4, R14), and its counts fit their fields (R182). -/
abbrev Volume.kept (x : Volume) : Prop :=
  x.sound ∧ (x.slotIn .active = none → x.slotB.state = .empty)
    ∧ (1 ≤ x.size ∧ x.size ≤ 64) ∧ (1 ≤ x.baseA ∧ x.baseA + x.size ≤ 256) ∧ (257 ≤ x.baseB ∧ x.baseB + x.size ≤ 512)
    ∧ x.genCounter ≤ Config.wordMax ∧ (x.slot .a).len ≤ Config.wordMax ∧ (x.slot .b).len ≤ Config.wordMax

/-- R14: no slot of a volume shares a sector with slots of `size` sectors at the base sectors `a` and `b`. -/
abbrev Volume.clearOf (y : Volume) (size a b : Nat) : Prop :=
  (a + size ≤ y.baseA ∨ y.baseA + y.size ≤ a) ∧ (b + size ≤ y.baseB ∨ y.baseB + y.size ≤ b)

/-- R14: no sector belongs to two volumes of a directory. -/
abbrev placedApart (d : Directory) : Prop :=
  ∀ v w : Vol, v ≠ w → ∀ x ∈ d[v], ∀ y ∈ d[w], y.clearOf x.size x.baseA x.baseB

/-- A record under program for the current sector means in the journal what it means in the running part: a CREATE places both
slots on sectors that no volume owns, a STAGE names the target of R13, a COMMIT the slot that is STAGING. -/
def recordMeans (d : Directory) (v : Vol) : JRecord → Prop
  | .create _ _ size a b _ _ => a.toNat + size.toNat ≤ 256 ∧ b.toNat + size.toNat ≤ 512
    ∧ ∀ w : Vol, ∀ y ∈ d[w], y.clearOf size.toNat a.toNat b.toNat
  | .stage _ c => ∀ y ∈ d[v], slotOfCode c = some y.target
  | .commit _ c .. => ∀ y ∈ d[v], ∀ sl ∈ slotOfCode c, (y.slot sl).state = .staging
  | .header _ | .delete _ | .access .. | .pin _ | .unpin _ | .rollback _ | .snapVol .. | .snapSlot .. | .snapEnd _ => True

/-- The entries that a COMPACT or a FORMAT has still to complete, the one under program first (R118, R133). -/
def State.unwritten (s : State) (e : InFlight) (o : OwnSector) : List JEntry :=
  e.entry.toList ++ o.todo.mapIdx (fun i item =>
    { seq := BitVec.ofNat 32 (o.seq + 1 + i), content := itemRecord s.vols (o.written + 1 + i) item })

/-- The sector of a COMPACT or a FORMAT as it will read once every entry has completed where it stands to. -/
def State.finished (s : State) (e : InFlight) (sector : JSector) (o : OwnSector) : List (Option (Option JEntry)) :=
  (judged s.store sector).take o.pos ++ (s.unwritten e o).map (fun x => some (some x))

/-- R117 to R120, R133: the sector under a COMPACT or a FORMAT is not usable yet; once its last entry, a SNAP_END, completes it
will be, under its epoch, and give the directory of the running part. A snapshot is at most 98 entries, each of at most three
positions (R115, R118), so it ends within the sector. -/
abbrev State.ownLaw (s : State) (e : InFlight) (sector : JSector) (o : OwnSector) : Prop :=
  let whole := s.finished e sector o
  o.pos ≤ Config.maxTries * o.written + e.tries ∧ e.tries < Config.maxTries ∧ o.seq ≤ o.pos + 1
    ∧ o.written + o.todo.length ≤ 97
    ∧ (validEntries ((judged s.store sector).take o.pos)).length = o.written
    ∧ ((judged s.store sector).drop o.pos).all Option.isNone = true ∧ usableEpoch (judged s.store sector) = none
    ∧ (s.unwritten e o).map (fun x => isSnapEnd x.content) = List.replicate o.todo.length false ++ [true]
    ∧ classify none whole = whole ∧ usableEpoch whole = some o.epoch ∧ nextSeq whole = o.seq + o.todo.length + 1
    ∧ followsJournal s.vols (rebuild whole).dir
    ∧ ((e.op.kind = .compact ∧ ∃ j ∈ s.journal, sector = j.sector.other ∧ o.epoch = nextEpoch j.epoch)
      ∨ (e.op.kind = .format ∧ s.mode = .unformatted ∧ sector = .j0))

/-- Where the work of the operation in flight lies (R94, R95, R97, R117, R133): in the journal sectors only that of a COMPACT, a
FORMAT and a record. -/
def State.placeLaw (s : State) (e : InFlight) : Prop :=
  match e.phase with
  | .none | .verifying | .rowWriting => e.own = none
  | .erasing n => e.own = none ∧
    ((e.op.kind = .compact ∧ ∃ j ∈ s.journal, n = jsectorNumber j.sector.other)
      ∨ (e.op.kind = .format ∧ s.mode = .unformatted
        ∧ (n = 0 ∨ (n = 256 ∧ (judged s.store .j0).all Option.isNone = true)))
      ∨ (e.op.kind = .erase ∧ n ≠ 0 ∧ n ≠ 256))
  | .programming n pg => e.own = none ∧ n ≠ 0 ∧ n ≠ 256 ∧ pg < 256 ∧ e.op.data.length ≤ 256
  | .journaling sector =>
    match e.own with
    | some o => s.ownLaw e sector o
    | none => ∃ j ∈ s.journal, sector = j.sector ∧ j.append < Config.positions
      ∧ ∀ en ∈ e.entry, en.seq = BitVec.ofNat 32 j.seq ∧ ∀ v ∈ e.op.vol, recordMeans s.vols v en.content

/-- The engine requests that are bound to a claim (R39). -/
def claimBoundKinds : List Kind := [.beginStage, .erase, .program, .commit, .rollback]

/-- R39, R60, R71: a staging operation in flight and each queued one is bound to the claim on its volume, which is HELD by the
port while the operation waits, and a PROGRAM carries its data. -/
abbrev State.bindLaw (s : State) : Prop :=
  (∀ e ∈ s.engine, e.op.kind ∈ claimBoundKinds → ∃ c ∈ e.op.claim, ∃ cl ∈ s.claims[c], e.op.vol = some cl.vol)
    ∧ ∀ p : Port, ∀ o ∈ s.fifos[p],
      (o.kind = .program → 1 ≤ programLength o.params ∧ o.data.length ≤ 256)
        ∧ (o.kind ∈ claimBoundKinds →
          ∃ c ∈ o.claim, ∃ cl ∈ s.claims[c], cl.holder = p ∧ cl.state = .held ∧ o.vol = some cl.vol)

/-- The array sector that an ERASE erases or a PROGRAM programs (R94). -/
def InFlight.workSector (e : InFlight) : Option Nat :=
  match e.phase with
  | .erasing n => if e.op.kind = .erase then some n else none
  | .programming n _ => some n
  | .none | .verifying | .journaling _ | .rowWriting => none

/-- R70: the sector that an ERASE or PROGRAM in flight works on lies in the STAGING slot of the volume its claim names. -/
abbrev State.stagingLaw (s : State) : Prop :=
  ∀ e ∈ s.engine, ∀ n ∈ e.workSector, ∃ c ∈ e.op.claim, ∃ cl ∈ s.claims[c], e.op.vol = some cl.vol
    ∧ ∃ x ∈ s.vols[cl.vol], ∃ sl ∈ x.slotIn .staging, x.base sl ≤ n ∧ n < x.base sl + x.size

/-- R128: outside STARTING the directory is the replay of the current sector, but for STALE slots that read STAGING there; in
UNFORMATTED no sector is usable. Whatever replay finds, at any time, it finds volumes the part has made, placed apart. -/
abbrev State.journalLaw (s : State) : Prop :=
  (placedApart s.vols ∧ ∀ v : Vol, ∀ x ∈ s.vols[v], x.kept)
    ∧ (∀ r ∈ replay s.store, r.journal.seq ≤ r.journal.append + 1 ∧ placedApart r.dir ∧ ∀ v : Vol, ∀ x ∈ r.dir[v], x.kept)
    ∧ (s.mode = .unformatted → replay s.store = none)
    ∧ (s.mode = .normal ∨ s.mode = .degraded → s.journal.isSome = true)
    ∧ (∀ j ∈ s.journal, ∃ r ∈ replay s.store, r.journal = j
      ∧ followsJournal s.vols (rebuild (judged s.store j.sector)).dir)
    ∧ (∀ e ∈ s.engine, s.placeLaw e)
    ∧ s.bindLaw

end Sys2Proof.Machine
end

