-- ==== Sys2Proof/Certificates/Slice0/Obligations.lean ====
section
/-! DEFINITION. The statements for the provers. Each formalises numbered rules of spec/; where a choice of the model enters,
the docstring names its log entry. -/

open Sys2Proof Sys2Proof.Machine

/-! ### The block -/

/-- A step takes the command at the front of the queue and runs it on the part with the rest of the queue. -/
def Obligations.StepRunsTheFrontCommand : Prop :=
  ∀ (c : Instr) (rest : List Instr) (s : State),
    step { s with pending := c :: rest } = exec c { s with pending := rest }

/-- No command is refused, the one fault is an access beyond the array, and the queue of waiting commands is never touched
(log entries 2 and 18). -/
def Obligations.CommandsRunAndKeepTheQueue : Prop :=
  ∀ (c : Instr) (s : State),
    (∃ t, exec c s = .next t ∧ t.pending = s.pending) ∨ exec c s = .fault .outsideArray

/-! ### Frames -/

/-- R156, R157, R159, R161, R168, R171, R173, R174: from its PnSEL on a frame in progress holds the status byte taken at its
start, the bytes received so far and, for a FETCH, the head of the queue; PnSDO is driven through the select period and not
after it. A frame given as its moments, with nothing between them, is the frame given whole (log entry 1); its end, or more of
it, cannot follow bytes that it does not begin with (log entry 11). A select period that was under way when PnRST was
deasserted is ignored. A port held in reset, by its PnRST or by RESET, drives nothing on PnSDO, and a frame command changes the
level of PnSEL alone; the same of a port without power is the model's (log entry 22). -/
def Obligations.MomentsMakeTheFrame : Prop :=
  ∀ (c : Instr) (p : Port) (m : Moment) (n : Nat) (s : State), c.frameOf = some (p, m) →
    let selected (b : Bool) (x : Option Frame) : State := s.setHpi p { s.hpi[p] with sel := b, frame := x }
    let opened : State := selected true (some { status := s.statusByte p, bytes := [], selected := none })
    let underWay : State := selected true (some {
      status := s.statusByte p, bytes := (wireOf c).take n
      selected := if 1 ≤ n ∧ (wireOf c).head? = some 0x02 then s.hpi[p].queue.head? else none })
    (s.serves p = true →
      exec (atMoment .select c) s = .next opened ∧ opened.drivesSdo p = true
      ∧ exec (atMoment (.received n) c) opened = .next underWay ∧ underWay.drivesSdo p = true
      ∧ exec (atMoment .deselect c) underWay = exec (atMoment .whole c) s
      ∧ (∀ t, exec (atMoment .whole c) s = .next t → t.hpi[p].frame = none ∧ t.drivesSdo p = false)
      ∧ (∀ f, s.hpi[p].frame = some f → ¬f.bytes <+: wireOf c →
        exec (atMoment (.received n) c) s = .next s ∧ exec (atMoment .deselect c) s = .next s)
      ∧ (s.hpi[p].frame = none →
        exec (atMoment (.received n) c) s = .next s ∧ exec (atMoment .deselect c) s = .next (selected false none)))
    ∧ (s.serves p = false →
      s.drivesSdo p = false
      ∧ exec (atMoment .select c) s = .next (s.setHpi p { s.hpi[p] with sel := true })
      ∧ exec (atMoment (.received n) c) s = .next s
      ∧ (∀ x ∈ [Moment.deselect, .whole], exec (atMoment x c) s = .next (s.setHpi p { s.hpi[p] with sel := false })))

/-- R156, R159, R160, R178: a STATUS frame shifts out the status byte and then 0x00 and leaves the outcome; a frame of unknown kind
shifts out the same and sets the outcome to REJECTED; a select period without a whole byte is no frame. Nothing else changes.
The status byte holds the mode in bits 7 and 6, the last outcome in bits 5 and 4 and the held responses in bits 3 to 0. -/
def Obligations.PlainFrames : Prop :=
  ∀ (p : Port) (s : State), s.serves p = true →
    (∀ extra, exec (.statusFrame p .whole extra) s = .next (s.setHpi p { s.hpi[p] with
        sel := false, frame := none, sdo := s.statusByte p :: List.replicate extra.length 0 }))
    ∧ (∀ (k : Byte) (rest : List Byte), 2 < k.toNat →
      exec (.unknownFrame p .whole (k :: rest)) s = .next (s.setHpi p { s.hpi[p] with
        sel := false, frame := none, sdo := s.statusByte p :: List.replicate rest.length 0, outcome := .rejected }))
    ∧ exec (.unknownFrame p .whole []) s = .next (s.setHpi p { s.hpi[p] with sel := false, frame := none })
    ∧ (s.statusByte p).extractLsb' 6 2 = (match s.mode with
        | .starting => 0
        | .unformatted => 1
        | .normal => 2
        | .degraded => 3)
    ∧ (s.statusByte p).extractLsb' 4 2 = (match s.hpi[p].outcome with
        | .none => 0
        | .taken => 1
        | .full => 2
        | .rejected => 3)
    ∧ (s.hpi[p].queue.length ≤ 8 → ((s.statusByte p).extractLsb' 0 4).toNat = s.hpi[p].queue.length)

/-- R168 to R170, R177, R180: a FETCH shifts out the head of the queue and then 0x00, and removes the head if the last bit of its
CRC-16 was shifted; on an empty queue it shifts 0x00 and removes nothing. Nothing else changes. A response with a body of m
bytes is m + 7 bytes: its length m + 5, tag, request code, status code, body, and the CRC-16 of the bytes before. PnATTN is
asserted exactly while the queue of a port that serves holds a response (a part without power: log entry 22). -/
def Obligations.FetchFrameReturnsTheHead : Prop :=
  ∀ (p : Port) (x : Clocked) (s : State), s.serves p = true →
    (∀ r rest, s.hpi[p].queue = r :: rest →
      exec (.fetchFrame p .whole x) s = .next (s.setHpi p { s.hpi[p] with
        sel := false
        frame := none
        sdo := s.statusByte p :: (List.range x.bytes.length).map (fun i => (responseBytes r).getD i 0)
        queue := if 8 * (r.body.length + 7) ≤ 8 * x.bytes.length + x.bits.val then rest else r :: rest })
      ∧ (responseBytes r).length = r.body.length + 7
      ∧ halfAt (responseBytes r) 0 = BitVec.ofNat 16 (r.body.length + 5)
      ∧ byteAt (responseBytes r) 2 = r.tag ∧ byteAt (responseBytes r) 3 = kindCode r.kind
      ∧ byteAt (responseBytes r) 4 = statusCode r.status
      ∧ (∀ i < r.body.length, byteAt (responseBytes r) (5 + i) = r.body.getD i 0)
      ∧ halfAt (responseBytes r) (r.body.length + 5) = crc16 ((responseBytes r).take (r.body.length + 5)))
    ∧ (s.hpi[p].queue = [] →
      exec (.fetchFrame p .whole x) s = .next (s.setHpi p { s.hpi[p] with
        sel := false
        frame := none
        sdo := s.statusByte p :: List.replicate x.bytes.length 0 }))
    ∧ (s.attn p = true ↔ s.hpi[p].queue ≠ [])
    ∧ ∀ (q : Port) (t : State), t.attn q = true → t.serves q = true

/-- R162, R175: a SUBMIT frame that is truncated, of a length outside 5 to 267, with a CRC-16 that does not match, whose code
names no request, or that ends in STARTING sets the outcome to REJECTED and does nothing more. -/
def Obligations.BadSubmitFramesAreRejected : Prop :=
  ∀ (p : Port) (bytes : List Byte) (s : State), s.serves p = true →
    (s.mode = .starting ∨ bytes.length < 2 ∨ (halfAt bytes 0).toNat < 5 ∨ 267 < (halfAt bytes 0).toNat
      ∨ bytes.length < 2 + (halfAt bytes 0).toNat
      ∨ halfAt bytes (halfAt bytes 0).toNat ≠ crc16 (0x01 :: bytes.take (halfAt bytes 0).toNat)
      ∨ ∀ k ∈ hostKinds, kindCode k ≠ byteAt bytes 3) →
    exec (.submitRejected p .whole bytes) s = .next (s.setHpi p { s.hpi[p] with
      sel := false, frame := none, sdo := s.statusByte p :: List.replicate bytes.length 0, outcome := .rejected })

/-- R161, R179: the bytes of a SUBMIT frame, with any bytes after them, are read back as the request they carry. R113, R182: the
32 bytes of a journal entry are read back as the entry. -/
def Obligations.FramesAndEntriesDecode : Prop :=
  (∀ (r : Request) (extra : List Byte), r.kind ∈ hostKinds → r.params.length ≤ 262 →
    parseSubmit (encodeSubmit r ++ extra) = some r)
  ∧ ∀ e : JEntry, (entryBytes e).length = 32 ∧ entryOf (entryBytes e) = some e

/-- R162, R163, R165: in STARTING the frame of every request is REJECTED; in any other mode it is FULL when the port has fewer free
response entries than the request needs, or the request is an engine request and the FIFO holds 4 records. Nothing but the
port changes. CLAIM needs 2 entries with wait flag 0 or none, else 3; RELEASE without parameters needs none from the holder of
a HELD claim on the named volume or from a waiter for it; everything else needs 1. -/
def Obligations.RequestsNotTaken : Prop :=
  ∀ (c : Instr) (k : Kind) (f : Submit) (s : State), c.requestOf = some (k, f) → s.serves f.port = true →
    f.moment = .whole → f.params.length ≤ 262 →
    let standing : Prop := ∃ v : Vol, f.volume = volByte v ∧
      ((∃ d : ClaimIx, ∃ cl ∈ s.claims[d], cl.vol = v ∧ cl.holder = f.port ∧ cl.state = .held)
        ∨ ∃ w ∈ s.waits, w.port = f.port ∧ w.vol = v)
    let engineKinds : List Kind := [.createVolume, .deleteVolume, .setAccess, .pin, .unpin, .format, .provision, .beginStage,
      .erase, .program, .commit, .rollback]
    (s.mode = .starting → exec c s = .next ((s.framed f).setOutcome f.port .rejected))
    ∧ (s.mode ≠ .starting →
        (s.freeEntries f.port < need k f.port f.volume f.params s
          ∨ (k ∈ engineKinds ∧ s.fifos[f.port].length = 4)) →
        exec c s = .next ((s.framed f).setOutcome f.port .full))
    ∧ (k = .claim → f.params = [] ∨ byteAt f.params 0 = 0 → need k f.port f.volume f.params s = 2)
    ∧ (k = .claim → f.params ≠ [] → byteAt f.params 0 ≠ 0 → need k f.port f.volume f.params s = 3)
    ∧ (k = .release → f.params = [] → standing → need k f.port f.volume f.params s = 0)
    ∧ (k = .release → f.params ≠ [] ∨ ¬standing → need k f.port f.volume f.params s = 1)
    ∧ (k ≠ .claim → k ≠ .release → need k f.port f.volume f.params s = 1)
    ∧ (isEngineKind k = true ↔ k ∈ engineKinds)

/-- R130, R179: a taken request that the mode does not allow is answered MODE or DEGRADED, and one that passes with too few or
too many parameter bytes BAD_REQUEST, before any check of its kind. Nothing but the answer, the outcome and the lease of
R51 changes. -/
def Obligations.ModeAndCountRefusals : Prop :=
  ∀ (c : Instr) (k : Kind) (f : Submit) (s : State), c.requestOf = some (k, f) → s.takes k f →
    (s.mode = .unformatted → k ∉ [Kind.queryDevice, .provision, .format] →
      exec c s = .next ((s.taken k f).push f.port (responseTo f k .mode [])))
    ∧ (s.mode ≠ .unformatted → k = .format →
      exec c s = .next ((s.taken k f).push f.port (responseTo f k .mode [])))
    ∧ (s.mode = .degraded →
      k ∈ [Kind.provision, .createVolume, .deleteVolume, .setAccess, .pin, .unpin, .beginStage, .erase, .program,
        .commit, .rollback] →
      exec c s = .next ((s.taken k f).push f.port (responseTo f k .degraded [])))
    ∧ (modeRefusal k s.mode = none → (if k = .program then f.params.length < 6 else f.params.length ≠ paramSize k) →
      exec c s = .next ((s.taken k f).push f.port (responseTo f k .badRequest [])))

/-- R51: taking a request reloads, with the lease count in force, the lease of the HELD claim that the sending port has on the
volume the request names, and changes no other claim. A kind that names no volume, an index above 31 and a port without such
a claim reload nothing. -/
def Obligations.TakingReloadsTheLease : Prop :=
  ∀ (s : State) (k : Kind) (f : Submit),
    (∀ (v : Vol) (c : ClaimIx) (x : Claim), k ∉ [Kind.closeView, .queryDevice, .format, .provision, .compact] →
      f.volume = volByte v → s.heldClaim f.port v = some c → s.claims[c] = some x →
      (s.taken k f).claims = s.claims.set c (some { x with lease := s.values.lease }))
    ∧ (k ∈ [Kind.closeView, .queryDevice, .format, .provision, .compact] ∨ 31 < f.volume.toNat
        ∨ (∃ v, f.volume = volByte v ∧ s.heldClaim f.port v = none) → (s.taken k f).claims = s.claims)

/-! ### Queries -/

/-- R109, R110, R181, section 10.5: QUERY_DEVICE is answered OK with the device report, whose 27 bytes stand at the offsets of
section 10.5. Its volume field is not examined. The last two bytes are the lengths of the longest runs of free sectors in 1 to
255 and in 257 to 511. -/
def Obligations.QueryDeviceReports : Prop :=
  ∀ (f : Submit) (s : State), s.takes .queryDevice f → f.params = [] →
    let freeRun (lo hi b n : Nat) : Prop := lo ≤ b ∧ b + n ≤ hi + 1 ∧ ∀ i < n, ∀ v : Vol, ∀ x ∈ s.vols[v],
      ¬(x.baseA ≤ b + i ∧ b + i < x.baseA + x.size) ∧ ¬(x.baseB ≤ b + i ∧ b + i < x.baseB + x.size)
    let longest (lo hi n : Nat) : Prop := (∃ b, freeRun lo hi b n) ∧ ∀ b m, freeRun lo hi b m → m ≤ n
    ∃ body, exec (.queryDevice f) s = .next ((s.taken .queryDevice f).push f.port (responseTo f .queryDevice .ok body))
      ∧ body.length = 27
      ∧ byteAt body 0 = (modeCode s.mode).setWidth 8 ∧ byteAt body 1 = provCode s.prov
      ∧ byteAt body 2 = s.values.admin.setWidth 8 ∧ byteAt body 3 = byteOf s.values.lease
      ∧ byteAt body 4 = byteOf s.values.eraseBudget ∧ byteAt body 5 = byteOf s.values.programBudget
      ∧ (∀ j, s.journal = some j →
          byteAt body 6 = jsectorCode (some j.sector) ∧ wordAt body 7 = BitVec.ofNat 32 j.epoch
            ∧ halfAt body 11 = BitVec.ofNat 16 (2048 - j.append) ∧ halfAt body 13 = BitVec.ofNat 16 s.skipped)
      ∧ (s.journal = none → byteAt body 6 = 0 ∧ wordAt body 7 = 0 ∧ halfAt body 11 = 0 ∧ halfAt body 13 = 0)
      ∧ byteAt body 15 = (if s.compactSlot then 1 else 0)
      ∧ (s.engine = none → byteAt body 16 = 0xFF ∧ byteAt body 17 = 0 ∧ byteAt body 18 = 0 ∧ byteAt body 19 = 0
          ∧ byteAt body 20 = 0)
      ∧ (∀ e, s.engine = some e →
          byteAt body 16 = (match e.port with
            | some q => byteOf q.val
            | none => 4)
            ∧ byteAt body 17 = kindCode e.op.kind
            ∧ byteAt body 18 = (match e.op.vol with
              | some v => volByte v
              | none => 0)
            ∧ byteAt body 19 = phaseCode e.phase ∧ byteAt body 20 = byteOf e.suspends)
      ∧ (∀ q : Port, byteAt body (21 + q.val) = byteOf s.fifos[q].length)
      ∧ longest 1 255 (byteAt body 25).toNat ∧ longest 257 511 (byteAt body 26).toNat

/-- R21, R181, section 10.5: QUERY_VOLUME is answered BAD_REQUEST, NO_VOLUME, or OK with the record as it stands, whose 46
bytes stand at the offsets of section 10.5. It needs one free entry. -/
def Obligations.QueryVolumeReports : Prop :=
  ∀ (f : Submit) (s : State), s.takes .queryVolume f → s.mode = .normal ∨ s.mode = .degraded → f.params = [] →
    need .queryVolume f.port f.volume f.params s = 1
    ∧ (31 < f.volume.toNat → exec (.queryVolume f) s =
      .next ((s.taken .queryVolume f).push f.port (responseTo f .queryVolume .badRequest [])))
    ∧ (∀ v : Vol, f.volume = volByte v → s.vols[v] = none → exec (.queryVolume f) s =
      .next ((s.taken .queryVolume f).push f.port (responseTo f .queryVolume .noVolume [])))
    ∧ (∀ (v : Vol) (x : Volume), f.volume = volByte v → s.vols[v] = some x →
      ∃ body, exec (.queryVolume f) s = .next ((s.taken .queryVolume f).push f.port (responseTo f .queryVolume .ok body))
        ∧ body.length = 46
        ∧ byteAt body 0 = volByte v ∧ halfAt body 1 = x.label ∧ byteAt body 3 = byteOf x.size
        ∧ halfAt body 4 = BitVec.ofNat 16 x.baseA ∧ halfAt body 6 = BitVec.ofNat 16 x.baseB
        ∧ byteAt body 8 = x.readers.setWidth 8 ∧ byteAt body 9 = x.writers.setWidth 8
        ∧ (byteAt body 10).toNat = (if x.pinned then 1 else 0) + (if x.deleting then 2 else 0)
        ∧ wordAt body 11 = BitVec.ofNat 32 x.genCounter
        ∧ (∀ sl, let o := if sl = .a then 15 else 28
            byteAt body o = slotStateCode (x.slot sl).state ∧ wordAt body (o + 1) = BitVec.ofNat 32 (x.slot sl).gen
              ∧ wordAt body (o + 5) = BitVec.ofNat 32 (x.slot sl).len ∧ wordAt body (o + 9) = (x.slot sl).crc)
        ∧ (s.claimOf v = none → byteAt body 41 = 0xFF ∧ byteAt body 42 = 0)
        ∧ (∀ c cl, s.claimOf v = some c → s.claims[c] = some cl →
            byteAt body 41 = byteOf cl.holder.val ∧ byteAt body 42 = (if cl.state = .held then 1 else 2))
        ∧ byteAt body 43 = byteOf (s.viewCount v .a) ∧ byteAt body 44 = byteOf (s.viewCount v .b)
        ∧ byteAt body 45 = byteOf (s.waits.countP (fun w => w.vol == v)))

/-! ### Engine requests: taking (R15, R60, R86, R132, R137, R149, R150) -/

/-- R15, R86, R132, R137, R149, R150: CREATE_VOLUME, DELETE_VOLUME, SET_ACCESS, PIN, UNPIN, FORMAT and PROVISION that pass their
taking checks while the engine is busy join the tail of the port's FIFO. -/
def Obligations.AdminRequestsJoinTheFifo : Prop :=
  ∀ (c : Instr) (k : Kind) (f : Submit) (s : State), c.requestOf = some (k, f) → s.takes k f → s.engine.isSome = true →
    (∀ v : Vol, s.mode = .normal → inMask s.values.admin f.port = true → adminParams k f.params = true →
      f.volume = volByte v →
      exec c s = .next ((s.taken k f).setFifo f.port (s.fifos[f.port] ++
        [{ tag := f.tag, kind := k, vol := some v, params := f.params, data := [], claim := none }])))
    ∧ (k = .format → s.mode = .unformatted → inMask s.values.admin f.port = true → f.params = [] →
      exec c s = .next ((s.taken k f).setFifo f.port (s.fifos[f.port] ++
        [{ tag := f.tag, kind := k, vol := none, params := [], data := [], claim := none }])))
    ∧ (k = .provision → s.mode = .unformatted ∨ s.mode = .normal → provisionParams f.params = true → s.prov = .blank →
      exec c s = .next ((s.taken k f).setFifo f.port (s.fifos[f.port] ++
        [{ tag := f.tag, kind := k, vol := none, params := f.params, data := [], claim := none }])))

/-- R39, R60, R86: BEGIN_STAGE, ERASE, PROGRAM, COMMIT and ROLLBACK from the holder of a HELD claim, taken while the engine is
busy, join the tail of the port's FIFO, are bound to the claim, and raise its pending operation count by one. -/
def Obligations.StagingRequestsJoinTheFifo : Prop :=
  ∀ (c : Instr) (k : Kind) (f : Submit) (s : State) (v : Vol) (i : ClaimIx), c.requestOf = some (k, f) → s.takes k f →
    s.engine.isSome = true → s.mode = .normal → f.volume = volByte v → stagingParams k f.params = true →
    s.heldClaim f.port v = some i →
    exec c s = .next (((s.taken k f).onClaim i (fun x => { x with pending := x.pending + 1 })).setFifo f.port
      (s.fifos[f.port] ++ [{ tag := f.tag, kind := k, vol := some v, params := f.params
                             data := if k = .program then f.params.drop 6 else [], claim := some i }]))

/-- R15, R60, R132, R137, R149, R150: the refusals of engine requests at taking. Nothing is queued and nothing is bound. -/
def Obligations.EngineRequestsRefusedAtTaking : Prop :=
  ∀ (c : Instr) (k : Kind) (f : Submit) (s : State) (st : Status), c.requestOf = some (k, f) → s.takes k f →
    modeRefusal k s.mode = none → (if k = .program then 6 ≤ f.params.length else f.params.length = paramSize k) →
    ((k ∈ [Kind.createVolume, .deleteVolume, .setAccess, .pin, .unpin, .format]
        ∧ inMask s.values.admin f.port = false ∧ st = .denied)
      ∨ (k ∈ [Kind.createVolume, .deleteVolume, .setAccess, .pin, .unpin] ∧ inMask s.values.admin f.port = true
        ∧ (31 < f.volume.toNat ∨ adminParams k f.params = false) ∧ st = .badRequest)
      ∨ (k = .provision ∧ provisionParams f.params = false ∧ st = .badRequest)
      ∨ (k = .provision ∧ provisionParams f.params = true ∧ s.prov ≠ .blank ∧ st = .frozen)
      ∨ (k ∈ [Kind.beginStage, .erase, .program, .commit, .rollback]
        ∧ (31 < f.volume.toNat ∨ stagingParams k f.params = false) ∧ st = .badRequest)
      ∨ (k ∈ [Kind.beginStage, .erase, .program, .commit, .rollback] ∧ stagingParams k f.params = true
        ∧ (∃ v, f.volume = volByte v ∧ s.heldClaim f.port v = none) ∧ st = .notClaimed)) →
    exec c s = .next ((s.taken k f).push f.port (responseTo f k st []))

/-! ### Engine requests: starts on an idle engine (R13, R14, R16, R17, R19, R61, R66, R68, R72, R77, R82, R90 to R93) -/

/-- R16, R17, R19, R90 to R92, R114, R115, R138, R140: on an idle engine with no work, CREATE_VOLUME, DELETE_VOLUME, SET_ACCESS, PIN
and UNPIN that pass their checks are picked at once and enter JOURNALING with their record, which takes the value of the
sequence counter; DELETE_VOLUME sets the deletion flag. The fields of the operation in flight are those of R92. With the append
point at 2,048 the record is lost at once: the mode becomes DEGRADED and the answer is ARRAY_FAULT (log entry 15). -/
def Obligations.AdminRequestsStart : Prop :=
  ∀ (c : Instr) (k : Kind) (f : Submit) (s : State) (v : Vol) (j : Journal), c.requestOf = some (k, f) → s.takes k f →
    s.mode = .normal → inMask s.values.admin f.port = true → adminParams k f.params = true → f.volume = volByte v →
    s.engine = none → s.work = 0 → s.journal = some j →
    let begun (r : JRecord) (d : Directory) : State := { s.taken k f with
      rr := f.port
      vols := d
      engine := some { flight (some f.port) { tag := f.tag, kind := k, vol := some v, params := f.params, data := []
                                              claim := none } s.values with
        phase := .journaling j.sector, entry := some { seq := BitVec.ofNat 32 j.seq, content := r } } }
    let lost : State :=
      { s.taken k f with rr := f.port, mode := .degraded }.push f.port (responseTo f k .arrayFault [])
    let journaling (r : JRecord) (d : Directory) : State := if j.append < 2048 then begun r d else lost
    (k = .createVolume → s.vols[v] = none →
      ∀ a b, place s.vols (byteAt f.params 2).toNat = some (a, b) →
      exec c s = .next (journaling (.create f.volume (halfAt f.params 0) (byteAt f.params 2) (BitVec.ofNat 16 a)
        (BitVec.ofNat 16 b) (byteAt f.params 3) (byteAt f.params 4)) s.vols))
    ∧ (∀ x, s.vols[v] = some x →
      (k = .deleteVolume → (x.pinned && s.pinen) = false → s.claimOf v = none → s.viewCount v .a = 0 →
        s.viewCount v .b = 0 →
        exec c s = .next (journaling (.delete f.volume) (s.vols.set v (some { x with deleting := true }))))
      ∧ (k = .setAccess → (x.pinned && s.pinen) = false →
        exec c s = .next (journaling (.access f.volume (byteAt f.params 0) (byteAt f.params 1)) s.vols))
      ∧ (k = .pin → exec c s = .next (journaling (.pin f.volume) s.vols))
      ∧ (k = .unpin → (x.pinned && s.pinen) = false → exec c s = .next (journaling (.unpin f.volume) s.vols)))

/-- R13, R61, R66, R68, R72, R77, R82, R90 to R92, R115: on an idle engine with no work, BEGIN_STAGE, ERASE, PROGRAM, COMMIT and
ROLLBACK that pass their checks are bound to the claim, picked at once, and enter their first phase. With the append point at
2,048 the record of a BEGIN_STAGE or ROLLBACK is lost at once: the mode becomes DEGRADED and the answer is ARRAY_FAULT (log
entry 15). -/
def Obligations.StagingRequestsStart : Prop :=
  ∀ (c : Instr) (k : Kind) (f : Submit) (s : State) (v : Vol) (i : ClaimIx) (x : Volume), c.requestOf = some (k, f) →
    s.takes k f → s.mode = .normal → f.volume = volByte v → stagingParams k f.params = true →
    s.heldClaim f.port v = some i → s.vols[v] = some x → s.engine = none → s.work = 0 →
    let running (ph : Phase) (en : Option JEntry) : State :=
      { (s.taken k f).onClaim i (fun y => { y with pending := y.pending + 1 }) with
        rr := f.port
        engine := some { flight (some f.port) { tag := f.tag, kind := k, vol := some v, params := f.params
                                                data := if k = .program then f.params.drop 6 else []
                                                claim := some i } s.values with phase := ph, entry := en } }
    (∀ j : Journal, s.journal = some j → x.slotIn .staging = none →
      let journaling (r : JRecord) : State :=
        if j.append < 2048 then running (.journaling j.sector) (some { seq := BitVec.ofNat 32 j.seq, content := r })
        else { s.taken k f with rr := f.port, mode := .degraded }.push f.port (responseTo f k .arrayFault [])
      (∀ sl, k = .beginStage → s.viewCount v sl = 0 →
        ((x.slotIn .active = some .a ∧ sl = .b) ∨ (x.slotIn .active = some .b ∧ sl = .a)
          ∨ (x.slotIn .active = none ∧ sl = .a)) →
        exec c s = .next (journaling (.stage f.volume (slotCode sl))))
      ∧ (k = .rollback → (x.slotIn .previous).isSome = true →
        exec c s = .next (journaling (.rollback f.volume))))
    ∧ (∀ sl, x.slotIn .staging = some sl →
      (k = .erase → (byteAt f.params 0).toNat < x.size →
        exec c s = .next (running (.erasing (x.base sl + (byteAt f.params 0).toNat)) none))
      ∧ (∀ m, k = .program → (wordAt f.params 0).toNat + (halfAt f.params 4).toNat ≤ x.size * 65536 →
        m = mapEntry (s.mapOf (some i)) ((wordAt f.params 0).toNat / 65536) → m.state ≠ .unknown →
        m.ptr ≤ (wordAt f.params 0).toNat % 65536 / 256 →
        exec c s = .next (running (.programming (x.base sl + (wordAt f.params 0).toNat / 65536)
          ((wordAt f.params 0).toNat % 65536 / 256)) none))
      ∧ (k = .commit → 1 ≤ (wordAt f.params 0).toNat → (wordAt f.params 0).toNat ≤ x.size * 65536 →
        x.genCounter ≠ 4294967295 →
        (∀ n ≤ ((wordAt f.params 0).toNat - 1) / 65536, (mapEntry (s.mapOf (some i)) n).state ≠ .unknown) →
        exec c s = .next (running .verifying none)))

/-- R132, R133, R150, R151: on an idle engine with no work, FORMAT begins with the erase of J0 and PROVISION with the row write. -/
def Obligations.FormatAndProvisionStart : Prop :=
  ∀ (c : Instr) (k : Kind) (f : Submit) (s : State), c.requestOf = some (k, f) → s.takes k f → s.engine = none →
    s.work = 0 →
    let running (ph : Phase) : State := { s.taken k f with
      rr := f.port
      engine := some { flight (some f.port) { tag := f.tag, kind := k, vol := none, params := f.params, data := []
                                              claim := none } s.values with phase := ph } }
    (k = .format → s.mode = .unformatted → inMask s.values.admin f.port = true → f.params = [] →
      exec c s = .next (running (.erasing 0)))
    ∧ (k = .provision → s.mode = .unformatted ∨ s.mode = .normal → provisionParams f.params = true → s.prov = .blank →
      exec c s = .next (running .rowWriting))

/-- R13, R16, R17, R19, R61, R68, R72, R77, R82, R93, R138, R140: on an idle engine with no work, an engine request that fails a
start check completes in the moment it is taken: its answer is placed, the pointer names its port, and nothing else changes. -/
def Obligations.StartChecksRefuse : Prop :=
  ∀ (c : Instr) (k : Kind) (f : Submit) (s : State) (v : Vol) (st : Status) (body : List Byte),
    c.requestOf = some (k, f) → s.takes k f → s.mode = .normal → f.volume = volByte v → s.engine = none → s.work = 0 →
    ((inMask s.values.admin f.port = true ∧ adminParams k f.params = true ∧ body = []
        ∧ ((k = .createVolume ∧ (s.vols[v]).isSome = true ∧ st = .inUse)
          ∨ (k = .createVolume ∧ s.vols[v] = none ∧ place s.vols (byteAt f.params 2).toNat = none ∧ st = .noSpace)
          ∨ (k ≠ .createVolume ∧ s.vols[v] = none ∧ st = .noVolume)
          ∨ (∃ x, s.vols[v] = some x ∧ k ∈ [Kind.deleteVolume, .setAccess, .unpin] ∧ (x.pinned && s.pinen) = true
              ∧ st = .pinned)
          ∨ (∃ x, s.vols[v] = some x ∧ k = .deleteVolume ∧ (x.pinned && s.pinen) = false
              ∧ (s.claimOf v ≠ none ∨ 0 < s.viewCount v .a ∨ 0 < s.viewCount v .b) ∧ st = .inUse)))
      ∨ (∃ i x, stagingParams k f.params = true ∧ s.heldClaim f.port v = some i ∧ s.vols[v] = some x
        ∧ ((k ∈ [Kind.beginStage, .rollback] ∧ (x.slotIn .staging).isSome = true ∧ st = .stagingOpen ∧ body = [])
          ∨ (k = .beginStage ∧ x.slotIn .staging = none ∧ 0 < s.viewCount v x.target ∧ st = .slotHeld ∧ body = [])
          ∨ (k = .rollback ∧ x.slotIn .staging = none ∧ x.slotIn .previous = none ∧ st = .noPrevious ∧ body = [])
          ∨ (k ∈ [Kind.erase, .program, .commit] ∧ x.slotIn .staging = none ∧ st = .noStaging ∧ body = [])
          ∨ (k = .erase ∧ (x.slotIn .staging).isSome = true ∧ x.size ≤ (byteAt f.params 0).toNat ∧ st = .range ∧ body = [])
          ∨ (k = .program ∧ (x.slotIn .staging).isSome = true
              ∧ x.size * 65536 < (wordAt f.params 0).toNat + (halfAt f.params 4).toNat ∧ st = .range ∧ body = [])
          ∨ (∃ m, k = .program ∧ (x.slotIn .staging).isSome = true
              ∧ (wordAt f.params 0).toNat + (halfAt f.params 4).toNat ≤ x.size * 65536
              ∧ m = mapEntry (s.mapOf (some i)) ((wordAt f.params 0).toNat / 65536)
              ∧ ((m.state = .unknown ∧ st = .notErased ∧ body = [])
                ∨ (m.state ≠ .unknown ∧ (wordAt f.params 0).toNat % 65536 / 256 < m.ptr ∧ st = .outOfOrder
                  ∧ body = half m.ptr)))
          ∨ (k = .commit ∧ (x.slotIn .staging).isSome = true
              ∧ ((wordAt f.params 0).toNat = 0 ∨ x.size * 65536 < (wordAt f.params 0).toNat) ∧ st = .range ∧ body = [])
          ∨ (k = .commit ∧ (x.slotIn .staging).isSome = true ∧ 1 ≤ (wordAt f.params 0).toNat
              ∧ (wordAt f.params 0).toNat ≤ x.size * 65536
              ∧ ((x.genCounter = 4294967295 ∧ st = .genLimit ∧ body = [])
                ∨ (∃ n, x.genCounter ≠ 4294967295 ∧ n ≤ ((wordAt f.params 0).toNat - 1) / 65536
                  ∧ (mapEntry (s.mapOf (some i)) n).state = .unknown
                  ∧ (∀ l < n, (mapEntry (s.mapOf (some i)) l).state ≠ .unknown) ∧ st = .incomplete
                  ∧ body = [byteOf n])))))) →
    exec c s = .next ({ s.taken k f with rr := f.port }.push f.port (responseTo f k st body))

/-- R14: the base sectors of a new volume are the first sectors of the lowest runs of free sectors of its slot size, sought in
1 to 255 and in 257 to 511 independently; without a run in either plane there is no placement. -/
def Obligations.PlacementTakesTheLowestRuns : Prop :=
  ∀ (d : Directory) (n : Nat), 1 ≤ n → n ≤ 64 →
    let run (lo hi b : Nat) : Prop := lo ≤ b ∧ b + n ≤ hi + 1 ∧ ∀ i < n, ∀ v : Vol, ∀ x ∈ d[v],
      ¬(x.baseA ≤ b + i ∧ b + i < x.baseA + x.size) ∧ ¬(x.baseB ≤ b + i ∧ b + i < x.baseB + x.size)
    (∀ a b, place d n = some (a, b) ↔
      (run 1 255 a ∧ ∀ a' < a, ¬run 1 255 a') ∧ (run 257 511 b ∧ ∀ b' < b, ¬run 257 511 b'))
    ∧ (place d n = none ↔ (∀ a, ¬run 1 255 a) ∨ ∀ b, ¬run 257 511 b)

/-! ### Reads and views -/

/-- R27, R76, R98, R100 to R102: the plane table. A read resolved to an address, a length and a slot is answered DATA with the
bytes of the array, DATA by a suspension that raises the suspend count by one, or RETRY, which changes nothing. -/
def Obligations.PlaneTableAnswersReads : Prop :=
  ∀ (r : Request) (p : Port) (x : Resolved) (s : State),
    let body := word x.gen ++ [slotCode x.slot] ++ half x.len ++ (List.range x.len).map (fun i => s.store.read (x.addr + i))
    let data (t : State) : State := t.push p { tag := r.tag, kind := r.kind, status := .data, body := body }
    let retry : State := s.push p { tag := r.tag, kind := r.kind, status := .retry, body := [] }
    let plane : Nat := if x.slot = .a then 0 else 1
    let planeOfSector (n : Nat) : Nat := if n < 256 then 0 else 1
    (s.engine = none → answerRead r p x s = data s)
    ∧ ∀ e, s.engine = some e →
      let suspended : State := { s with engine := some { e with suspends := e.suspends + 1 } }
      (e.phase = .none ∨ e.phase = .verifying ∨ e.phase = .rowWriting → answerRead r p x s = data s)
      ∧ (∀ n, e.phase = .erasing n →
        answerRead r p x s = if planeOfSector n ≠ plane then data s
          else if e.suspends < e.eraseBudget then data suspended else retry)
      ∧ (∀ n pg, e.phase = .programming n pg →
        answerRead r p x s = if planeOfSector n ≠ plane then data s
          else if e.suspends < e.programBudget then data suspended else retry)
      ∧ (∀ j : JSector, e.phase = .journaling j →
        answerRead r p x s = if (if j = .j0 then 0 else 1) ≠ plane then data s else retry)

/-- R3, R24, R25, R27: READ from CURRENT. It is answered BAD_REQUEST, NO_VOLUME, DENIED, NO_IMAGE or RANGE, in this order, or is
resolved to the ACTIVE slot and goes to the plane table. A read that resolves beyond the array is the model's fault (log entry
18). -/
def Obligations.ReadFromCurrent : Prop :=
  ∀ (f : Submit) (s : State), s.takes .read f → s.mode = .normal ∨ s.mode = .degraded → f.params.length = 7 →
    let refused (st : Status) : Res := .next ((s.taken .read f).push f.port (responseTo f .read st []))
    (31 < f.volume.toNat ∨ (3 < (byteAt f.params 0).toNat ∧ byteAt f.params 0 ≠ 0xFF) ∨ halfAt f.params 5 = 0
        ∨ 256 < (halfAt f.params 5).toNat →
      exec (.read f) s = refused .badRequest)
    ∧ ∀ (v : Vol) (o n : Nat), f.volume = volByte v → byteAt f.params 0 = 0xFF → (wordAt f.params 1).toNat = o →
      (halfAt f.params 5).toNat = n → 1 ≤ n → n ≤ 256 →
      (s.vols[v] = none → exec (.read f) s = refused .noVolume)
      ∧ ∀ x, s.vols[v] = some x →
        (inMask x.readers f.port = false → exec (.read f) s = refused .denied)
        ∧ (inMask x.readers f.port = true → x.slotIn .active = none → exec (.read f) s = refused .noImage)
        ∧ ∀ sl, inMask x.readers f.port = true → x.slotIn .active = some sl →
          ((x.slot sl).len < o + n → exec (.read f) s = refused .range)
          ∧ (o + n ≤ (x.slot sl).len → x.base sl * 65536 + o + n ≤ 33554432 →
            exec (.read f) s = .next (answerRead (requestOfFrame .read f) f.port
              { addr := x.base sl * 65536 + o, len := n, slot := sl, gen := (x.slot sl).gen } (s.taken .read f)))
          ∧ (o + n ≤ (x.slot sl).len → 33554432 < x.base sl * 65536 + o + n →
            exec (.read f) s = .fault .outsideArray)

/-- R3, R26, R27: READ through a view. It is answered NO_VIEW or RANGE, or is resolved to the slot of the view with its
generation, whatever the reader mask and the state of the slot, and goes to the plane table. -/
def Obligations.ReadThroughView : Prop :=
  ∀ (f : Submit) (s : State) (v : Vol) (h : Handle) (o n : Nat), s.takes .read f → s.mode = .normal ∨ s.mode = .degraded →
    f.params.length = 7 → f.volume = volByte v → byteAt f.params 0 = byteOf h.val → (wordAt f.params 1).toNat = o →
    (halfAt f.params 5).toNat = n → 1 ≤ n → n ≤ 256 →
    let refused (st : Status) : Res := .next ((s.taken .read f).push f.port (responseTo f .read st []))
    (s.views[f.port][h] = none → exec (.read f) s = refused .noView)
    ∧ ∀ w, s.views[f.port][h] = some w →
      (w.vol ≠ v → exec (.read f) s = refused .noView)
      ∧ (w.vol = v → w.len < o + n → exec (.read f) s = refused .range)
      ∧ ∀ x, w.vol = v → o + n ≤ w.len → s.vols[v] = some x →
        (x.base w.slot * 65536 + o + n ≤ 33554432 →
          exec (.read f) s = .next (answerRead (requestOfFrame .read f) f.port
            { addr := x.base w.slot * 65536 + o, len := n, slot := w.slot, gen := w.gen } (s.taken .read f)))
        ∧ (33554432 < x.base w.slot * 65536 + o + n → exec (.read f) s = .fault .outsideArray)

/-- R3, R75, R76: READ_STAGED. It is answered BAD_REQUEST, NOT_CLAIMED, NO_STAGING, RANGE, NOT_ERASED or BUSY, in this order,
or is resolved to the STAGING slot with generation 0 and goes to the plane table. -/
def Obligations.ReadStagedAnswers : Prop :=
  ∀ (f : Submit) (s : State), s.takes .readStaged f → s.mode = .normal ∨ s.mode = .degraded → f.params.length = 6 →
    let refused (st : Status) : Res := .next ((s.taken .readStaged f).push f.port (responseTo f .readStaged st []))
    (31 < f.volume.toNat ∨ halfAt f.params 4 = 0 ∨ 256 < (halfAt f.params 4).toNat →
      exec (.readStaged f) s = refused .badRequest)
    ∧ ∀ (v : Vol) (o n : Nat), f.volume = volByte v → (wordAt f.params 0).toNat = o → (halfAt f.params 4).toNat = n →
      1 ≤ n → n ≤ 256 →
      (s.heldClaim f.port v = none → exec (.readStaged f) s = refused .notClaimed)
      ∧ ∀ (i : ClaimIx) x, s.heldClaim f.port v = some i → s.vols[v] = some x →
        (x.slotIn .staging = none → exec (.readStaged f) s = refused .noStaging)
        ∧ ∀ sl, x.slotIn .staging = some sl →
          let touched (k : Nat) : Prop := o / 65536 ≤ k ∧ k ≤ (o + n - 1) / 65536
          let underWork : Prop := ∃ e k, s.engine = some e ∧ e.op.vol = some v ∧ touched k
            ∧ (e.op.kind = .erase ∨ e.op.kind = .program)
            ∧ (e.phase = .erasing (x.base sl + k) ∨ ∃ pg, e.phase = .programming (x.base sl + k) pg)
          (x.size * 65536 < o + n → exec (.readStaged f) s = refused .range)
          ∧ (o + n ≤ x.size * 65536 → (∃ k, touched k ∧ (mapEntry (s.mapOf (some i)) k).state = .unknown) →
            exec (.readStaged f) s = refused .notErased)
          ∧ (o + n ≤ x.size * 65536 → (∀ k, touched k → (mapEntry (s.mapOf (some i)) k).state ≠ .unknown) →
            (underWork → exec (.readStaged f) s = refused .busy)
            ∧ (¬underWork → x.base sl * 65536 + o + n ≤ 33554432 →
              exec (.readStaged f) s = .next (answerRead (requestOfFrame .readStaged f) f.port
                { addr := x.base sl * 65536 + o, len := n, slot := sl, gen := 0 } (s.taken .readStaged f)))
            ∧ (¬underWork → 33554432 < x.base sl * 65536 + o + n → exec (.readStaged f) s = .fault .outsideArray))

/-- R22, R31 to R33: OPEN_VIEW is answered NO_VOLUME, DENIED, NO_IMAGE or VIEW_FULL, or opens the lowest closed entry of the port
on the ACTIVE slot; CLOSE_VIEW is answered BAD_REQUEST or NO_VIEW, or closes the entry. Each moves the view count of its slot
by one. -/
def Obligations.ViewsOpenAndClose : Prop :=
  ∀ (f : Submit) (s : State), s.mode = .normal ∨ s.mode = .degraded →
    (s.takes .openView f → f.params = [] →
      let refused (st : Status) : Res := .next ((s.taken .openView f).push f.port (responseTo f .openView st []))
      (31 < f.volume.toNat → exec (.openView f) s = refused .badRequest)
      ∧ ∀ v : Vol, f.volume = volByte v →
        (s.vols[v] = none → exec (.openView f) s = refused .noVolume)
        ∧ ∀ x, s.vols[v] = some x →
          (x.deleting = true → exec (.openView f) s = refused .noVolume)
          ∧ (x.deleting = false → inMask x.readers f.port = false → exec (.openView f) s = refused .denied)
          ∧ (x.deleting = false → inMask x.readers f.port = true → x.slotIn .active = none →
            exec (.openView f) s = refused .noImage)
          ∧ ∀ sl, x.deleting = false → inMask x.readers f.port = true → x.slotIn .active = some sl →
            ((∀ h : Handle, (s.views[f.port][h]).isSome = true) → exec (.openView f) s = refused .viewFull)
            ∧ ∀ h : Handle, s.views[f.port][h] = none → (∀ h' < h, (s.views[f.port][h']).isSome = true) →
              ∃ t, exec (.openView f) s = .next (t.push f.port (responseTo f .openView .view
                  ([byteOf h.val, slotCode sl] ++ word (x.slot sl).gen ++ word (x.slot sl).len ++ be32 (x.slot sl).crc)))
                ∧ t = { s.taken .openView f with views := s.views.set f.port (s.views[f.port].set h
                    (some { vol := v, slot := sl, gen := (x.slot sl).gen, len := (x.slot sl).len })) }
                ∧ t.viewCount v sl = s.viewCount v sl + 1)
    ∧ (∀ b, s.takes .closeView f → f.params = [b] →
      let answered (t : State) (st : Status) : Res := .next (t.push f.port (responseTo f .closeView st []))
      (3 < b.toNat → exec (.closeView f) s = answered (s.taken .closeView f) .badRequest)
      ∧ ∀ h : Handle, b = byteOf h.val →
        (s.views[f.port][h] = none → exec (.closeView f) s = answered (s.taken .closeView f) .noView)
        ∧ ∀ w, s.views[f.port][h] = some w →
          ∃ t, exec (.closeView f) s = answered t .ok
            ∧ t = { s.taken .closeView f with views := s.views.set f.port (s.views[f.port].set h none) }
            ∧ s.viewCount w.vol w.slot = t.viewCount w.vol w.slot + 1)

/-! ### Claims -/

/-- R40: a CLAIM that a check refuses is answered BAD_REQUEST, NO_VOLUME, DENIED, PINNED, ALREADY_HELD, NOT_CLAIMED or
ALREADY_WAITING, the first that applies, and changes nothing in the Claim Unit beyond the reload of R51. -/
def Obligations.ClaimRefusals : Prop :=
  ∀ (f : Submit) (s : State) (b : Byte), s.takes .claim f → s.mode = .normal ∨ s.mode = .degraded → f.params = [b] →
    let refused (st : Status) : Res := .next ((s.taken .claim f).push f.port (responseTo f .claim st []))
    (31 < f.volume.toNat ∨ 1 < b.toNat → exec (.claim f) s = refused .badRequest)
    ∧ ∀ v : Vol, f.volume = volByte v → b.toNat ≤ 1 →
      (s.vols[v] = none → exec (.claim f) s = refused .noVolume)
      ∧ ∀ x, s.vols[v] = some x →
        (x.deleting = true → exec (.claim f) s = refused .noVolume)
        ∧ (x.deleting = false → inMask x.writers f.port = false → exec (.claim f) s = refused .denied)
        ∧ (x.deleting = false → inMask x.writers f.port = true → x.pinned = true → s.pinen = true →
          exec (.claim f) s = refused .pinned)
        ∧ (x.deleting = false → inMask x.writers f.port = true → x.pinned = false ∨ s.pinen = false →
          (∀ (c : ClaimIx) cl, s.claimOf v = some c → s.claims[c] = some cl → cl.holder = f.port →
            (cl.state = .held → exec (.claim f) s = refused .alreadyHeld)
            ∧ (cl.state = .revoking → exec (.claim f) s = refused .notClaimed))
          ∧ ((∀ (c : ClaimIx) cl, s.claimOf v = some c → s.claims[c] = some cl → cl.holder ≠ f.port) →
            (∃ w ∈ s.waits, w.port = f.port ∧ w.vol = v) → exec (.claim f) s = refused .alreadyWaiting))

/-- R41: a CLAIM that passes the checks of R40, on an unclaimed volume with a Claim Table entry free, creates a HELD claim in
the lowest free entry and is answered CLAIMED with the lease count loaded. -/
def Obligations.ClaimIsServedAtOnce : Prop :=
  ∀ (f : Submit) (s : State) (b : Byte) (v : Vol) (x : Volume) (c : ClaimIx), s.takes .claim f →
    s.mode = .normal ∨ s.mode = .degraded → f.params = [b] → b.toNat ≤ 1 → f.volume = volByte v →
    s.vols[v] = some x → x.deleting = false → inMask x.writers f.port = true → x.pinned = false ∨ s.pinen = false →
    (∀ d : ClaimIx, ∀ cl ∈ s.claims[d], cl.vol ≠ v) → (∀ w ∈ s.waits, ¬(w.port = f.port ∧ w.vol = v)) →
    s.claims[c] = none → (∀ d < c, (s.claims[d]).isSome = true) →
    exec (.claim f) s = .next ({ (s.framed f).setOutcome f.port .taken with
      claims := s.claims.set c (some { vol := v, holder := f.port, state := .held, tag := f.tag, lease := s.values.lease
                                       pending := 0, map := none }) }.push f.port
        (responseTo f .claim .claimed [byteOf s.values.lease]))

/-- R42: a CLAIM without wait that passes the checks of R40 and cannot be served at once is answered CLAIM_HELD with the holder
and the claim state, or TABLE_FULL with no body. It leaves no trace in the Claim Unit. -/
def Obligations.ClaimWithoutWait : Prop :=
  ∀ (f : Submit) (s : State) (v : Vol) (x : Volume), s.takes .claim f → s.mode = .normal ∨ s.mode = .degraded →
    f.params = [0] → f.volume = volByte v → s.vols[v] = some x → x.deleting = false → inMask x.writers f.port = true →
    x.pinned = false ∨ s.pinen = false → (∀ d : ClaimIx, ∀ cl ∈ s.claims[d], cl.vol = v → cl.holder ≠ f.port) →
    (∀ w ∈ s.waits, ¬(w.port = f.port ∧ w.vol = v)) →
    (∀ (c : ClaimIx) cl, s.claimOf v = some c → s.claims[c] = some cl →
      exec (.claim f) s = .next (((s.framed f).setOutcome f.port .taken).push f.port
        (responseTo f .claim .claimHeld [byteOf cl.holder.val, if cl.state = .held then 1 else 2])))
    ∧ ((∀ d : ClaimIx, ∃ cl, s.claims[d] = some cl ∧ cl.vol ≠ v) →
      exec (.claim f) s = .next (((s.framed f).setOutcome f.port .taken).push f.port (responseTo f .claim .tableFull [])))

/-- R43, R45: a CLAIM with wait that passes the checks of R40 and cannot be served at once is answered WAIT_FULL, or joins the
tail of the wait list and is answered QUEUED with the number of entries ahead for the same volume. Its two reservations are in
force from then on. -/
def Obligations.ClaimWithWait : Prop :=
  ∀ (f : Submit) (s : State) (v : Vol) (x : Volume), s.takes .claim f → s.mode = .normal ∨ s.mode = .degraded →
    f.params = [1] → f.volume = volByte v → s.vols[v] = some x → x.deleting = false → inMask x.writers f.port = true →
    x.pinned = false ∨ s.pinen = false → (∀ d : ClaimIx, ∀ cl ∈ s.claims[d], cl.vol = v → cl.holder ≠ f.port) →
    (∀ w ∈ s.waits, ¬(w.port = f.port ∧ w.vol = v)) →
    (∃ d : ClaimIx, ∃ cl ∈ s.claims[d], cl.vol = v) ∨ (∀ d : ClaimIx, (s.claims[d]).isSome = true) →
    (8 ≤ s.waits.length →
      exec (.claim f) s = .next (((s.framed f).setOutcome f.port .taken).push f.port (responseTo f .claim .waitFull [])))
    ∧ (s.waits.length < 8 → ∃ t, exec (.claim f) s = .next t
      ∧ t = { (s.framed f).setOutcome f.port .taken with
          waits := s.waits ++ [({ port := f.port, vol := v, tag := f.tag } : Waiter)] }.push f.port
            (responseTo f .claim .queued [byteOf (s.waits.countP (fun w : Waiter => w.vol == v))])
      ∧ t.reservations f.port = s.reservations f.port + 2)

/-- R48, R49: RELEASE from the holder of a HELD claim runs the revocation procedure with the notice RELEASED; from a waiter it
removes the first entry of the port for the volume and is answered WITHDRAWN with the CLAIM tag; from any other port it is
answered NOT_CLAIMED, and an index above 31 is answered BAD_REQUEST. -/
def Obligations.ReleaseEndsClaimsAndWaits : Prop :=
  ∀ (f : Submit) (s : State), s.takes .release f → s.mode = .normal ∨ s.mode = .degraded → f.params = [] →
    (31 < f.volume.toNat → exec (.release f) s =
      .next ((s.taken .release f).push f.port (responseTo f .release .badRequest [])))
    ∧ ∀ v : Vol, f.volume = volByte v →
      (∀ c, s.heldClaim f.port v = some c →
        exec (.release f) s = .next ((s.taken .release f).revoke c (.released f.tag)))
      ∧ (∀ l w l', s.heldClaim f.port v = none → s.waits = l ++ w :: l' → w.port = f.port → w.vol = v →
        (∀ u ∈ l, ¬(u.port = f.port ∧ u.vol = v)) →
        exec (.release f) s = .next ({ s.taken .release f with waits := l ++ l' }.push f.port
          (responseTo f .release .withdrawn [w.tag])))
      ∧ (s.heldClaim f.port v = none → (∀ w ∈ s.waits, ¬(w.port = f.port ∧ w.vol = v)) →
        exec (.release f) s = .next ((s.taken .release f).push f.port (responseTo f .release .notClaimed [])))

/-- R50: RENEW from the holder of a HELD claim loads its lease with the lease count in force and is answered OK with that count;
without such a claim it is answered NOT_CLAIMED, and for an index above 31 BAD_REQUEST. Nothing else changes. -/
def Obligations.RenewReloadsTheLease : Prop :=
  ∀ (f : Submit) (s : State), s.takes .renew f → s.mode = .normal ∨ s.mode = .degraded → f.params = [] →
    let accepted : State := (s.framed f).setOutcome f.port .taken
    (31 < f.volume.toNat → exec (.renew f) s = .next (accepted.push f.port (responseTo f .renew .badRequest [])))
    ∧ ∀ v : Vol, f.volume = volByte v →
      (s.heldClaim f.port v = none →
        exec (.renew f) s = .next (accepted.push f.port (responseTo f .renew .notClaimed [])))
      ∧ ∀ (c : ClaimIx) cl, s.heldClaim f.port v = some c → s.claims[c] = some cl →
        exec (.renew f) s = .next ({ accepted with claims := s.claims.set c (some { cl with lease := s.values.lease }) }.push
          f.port (responseTo f .renew .ok [byteOf s.values.lease]))

/-- R12, R38, R39, R48, R55: the revocation procedure. The claim's queued operations leave the FIFO of the holder and are
answered CANCELLED in order, the notice follows, and the entry becomes REVOKING if an operation of the claim is in flight;
otherwise it is freed, a STAGING slot of its volume becomes STALE, and grants follow. Under a port reset it is silent. -/
def Obligations.RevocationProcedure : Prop :=
  ∀ (s : State) (c : ClaimIx) (cl : Claim) (n : Notice), s.claims[c] = some cl →
    let mine (o : Op) : Bool := o.claim == some c
    let gone := s.fifos[cl.holder].filter mine
    let stopped (r : SlotRec) : SlotRec := if r.state = .staging then { state := .stale, image := none } else r
    let inFlight : Prop := ∃ e, s.engine = some e ∧ e.op.claim = some c
    let notice (disposition : Byte) : List Response :=
      match n with
      | .silent => []
      | .expired => [{ tag := cl.tag, kind := .claim, status := .expired, body := [] }]
      | .revoked => [{ tag := cl.tag, kind := .claim, status := .revoked, body := [] }]
      | .released tag => [{ tag := tag, kind := .release, status := .released, body := [cl.tag, disposition] }]
    let answers (disposition : Byte) : List Response :=
      (if n = .silent then [] else gone.map (fun o => { tag := o.tag, kind := o.kind, status := .cancelled, body := [] }))
        ++ notice disposition
    (inFlight → s.revoke c n = { s with
        hpi := s.adds cl.holder (answers 1)
        fifos := s.fifos.set cl.holder (s.fifos[cl.holder].filter (fun o => !mine o))
        claims := s.claims.set c (some { cl with state := .revoking, pending := cl.pending - gone.length }) })
    ∧ (¬inFlight → s.revoke c n = { s with
        hpi := s.adds cl.holder (answers 0)
        fifos := s.fifos.set cl.holder (s.fifos[cl.holder].filter (fun o => !mine o))
        claims := s.claims.set c none
        vols := s.vols.set cl.vol ((s.vols[cl.vol]).map (fun x : Volume =>
          { x with slotA := stopped x.slotA, slotB := stopped x.slotB })) }.grantAll)

/-- R45, R46: while an entry is free and a waiter is eligible, the earliest eligible waiter is granted the lowest-numbered free
entry, its claim starts HELD with the lease count in force, and GRANTED joins its port's queue; otherwise nothing changes. -/
def Obligations.GrantsGoToTheEarliestEligibleWaiter : Prop :=
  ∀ s : State,
    let eligible (w : Waiter) : Prop := ∃ x, s.vols[w.vol] = some x ∧ x.deleting = false
      ∧ (∀ d : ClaimIx, ∀ cl ∈ s.claims[d], cl.vol ≠ w.vol) ∧ (x.pinned = false ∨ s.pinen = false)
    (∀ (c : ClaimIx) w l l', s.claims[c] = none → (∀ d < c, (s.claims[d]).isSome = true) → s.waits = l ++ w :: l' → eligible w →
      (∀ u ∈ l, ¬eligible u) →
      s.grantAll = ({ s with
        waits := l ++ l'
        claims := s.claims.set c (some { vol := w.vol, holder := w.port, state := .held, tag := w.tag
                                         lease := s.values.lease, pending := 0, map := none })
        hpi := s.adds w.port [{ tag := w.tag, kind := .claim, status := .granted, body := [byteOf s.values.lease] }]
        }).grantAll)
    ∧ ((∀ c : ClaimIx, (s.claims[c]).isSome = true) ∨ (∀ w ∈ s.waits, ¬eligible w) → s.grantAll = s)

/-! ### The engine -/

/-- R39, R56, R103, R104: the steps of a completion. The response joins the queue of the port unless the operation is a COMPACT
or its discard mark is set; the pending count of a HELD claim goes down by one, a REVOKING claim is freed with the end of its
session and the grants that follow; the engine is idle. -/
def Obligations.FinishSteps : Prop :=
  ∀ (s : State) (e : InFlight) (st : Status) (body : List Byte), s.engine = some e →
    let queues : Vector Hpi 4 :=
      match e.port with
      | none => s.hpi
      | some p => if e.discard then s.hpi else
          s.adds p [{ tag := e.op.tag, kind := e.op.kind, status := st, body := body }]
    let stopped (r : SlotRec) : SlotRec := if r.state = .staging then { state := .stale, image := none } else r
    (e.op.claim = none → s.finish st body = { s with hpi := queues, engine := none })
    ∧ ∀ (c : ClaimIx) cl, e.op.claim = some c → s.claims[c] = some cl →
      (cl.state = .held → s.finish st body =
        { s with hpi := queues, engine := none, claims := s.claims.set c (some { cl with pending := cl.pending - 1 }) })
      ∧ (cl.state = .revoking → s.finish st body =
        { { s with
            hpi := queues
            claims := s.claims.set c none
            vols := s.vols.set cl.vol ((s.vols[cl.vol]).map (fun x : Volume =>
              { x with slotA := stopped x.slotA, slotB := stopped x.slotB })) }.grantAll with engine := none })

/-- R61, R90 to R93, R117, R120, R131, R132, R151: the COMPACT of the compaction slot is picked first and leaves the pointer;
otherwise the head of the first FIFO that is not empty, looked for after the pointer, which then names its port. An operation
that passes its start checks runs; one that fails completes, and the arbiter picks again; with no work nothing is picked. At its
start an operation completes with DEGRADED in that mode, if R131 names its kind, then with NOT_CLAIMED if its claim is not HELD;
a FORMAT erases J0, or completes with MODE outside UNFORMATTED; a PROVISION writes the row, or completes with FROZEN unless the
state is BLANK; a COMPACT erases the journal sector that is not current, or completes in any mode but NORMAL (log entry 28). -/
def Obligations.PickOrder : Prop :=
  ∀ s : State,
    let after (n : Fin 4) : Port := s.rr + 1 + n
    (s.compactSlot = true → s.takePick = some (compactOp,
      { s with compactSlot := false
               engine := some { port := none, op := compactOp, phase := .none, suspends := 0
                                eraseBudget := s.values.eraseBudget, programBudget := s.values.programBudget
                                discard := false, entry := none, tries := 0, own := none } }))
    ∧ (∀ (n : Fin 4) op rest, s.compactSlot = false → s.fifos[after n] = op :: rest →
      (∀ m : Fin 4, m < n → s.fifos[after m] = []) →
      s.takePick = some (op,
        { s with fifos := s.fifos.set (after n) rest
                 rr := after n
                 engine := some { port := some (after n), op := op, phase := .none, suspends := 0
                                  eraseBudget := s.values.eraseBudget, programBudget := s.values.programBudget
                                  discard := false, entry := none, tries := 0, own := none } }))
    ∧ (s.compactSlot = false → (∀ p : Port, s.fifos[p] = []) → s.takePick = none ∧ s.pick = s)
    ∧ (s.engine = none → s.mode ≠ .starting → ∀ op t, s.takePick = some (op, t) →
      (∀ u, startOp op t = .runs u → s.pick = u)
      ∧ (∀ st body u, startOp op t = .ends st body u → s.pick = (u.finish st body).pick)
      ∧ (let completes (st : Status) : Prop := s.pick = (t.finish st []).pick
         let runs (ph : Phase) : Prop := s.pick = { t with engine := t.engine.map (fun e => { e with phase := ph }) }
         let stopped : Prop := s.mode = .degraded ∧ op.kind ∈
           [Kind.createVolume, .deleteVolume, .setAccess, .pin, .unpin, .beginStage, .commit, .rollback]
         let held : Prop := ∀ c ∈ op.claim, ∃ cl ∈ s.claims[c], cl.state = .held
         (stopped → completes .degraded)
         ∧ (¬stopped → ¬held → completes .notClaimed)
         ∧ (held →
           (op.kind = .format → s.mode ≠ .unformatted → completes .mode)
           ∧ (op.kind = .format → s.mode = .unformatted → runs (.erasing 0))
           ∧ (op.kind = .provision → s.prov ≠ .blank → completes .frozen)
           ∧ (op.kind = .provision → s.prov = .blank → runs .rowWriting)
           ∧ (∀ j, op.kind = .compact → s.mode = .normal → s.journal = some j →
             runs (.erasing (if j.sector = .j0 then 256 else 0)))
           ∧ (op.kind = .compact → s.mode ≠ .normal → completes .done))))
    ∧ (s.engine.isSome = true ∨ s.mode = .starting → s.pick = s)

/-- R2, R69, R73, R74, R94, R95: the end of an ERASE or a PROGRAM. On success the sector is erased, or the page takes the data,
and the map entry becomes ERASED, or PARTIAL with the next page as pointer; on an array fault the sector or page is undefined
and the map entry UNKNOWN. DONE or ARRAY_FAULT carries the sector index, a DONE of PROGRAM the new pointer too. -/
def Obligations.ErasesAndProgramsEnd : Prop :=
  ∀ (s : State) (e : InFlight) (c : ClaimIx) (cl : Claim) (map : List MapEntry), s.engine = some e →
    e.op.claim = some c → s.claims[c] = some cl → cl.map = some map →
    let mapped (st : Store) (i : Nat) (m : MapEntry) : State :=
      { s with store := st, claims := s.claims.set c (some { cl with map := some (map.set i m) }) }
    (∀ (n : Nat) (b : Byte), e.op.kind = .erase → e.phase = .erasing n → n < 512 → e.op.params = [b] →
      exec (.eraseCompletion true) s =
        .next ((mapped (s.store.eraseSector n) b.toNat { state := .erased, ptr := 0 }).finish .done [b]).pick
      ∧ exec (.eraseCompletion false) s =
        .next ((mapped (s.store.spoilSector n) b.toNat { state := .unknown, ptr := 0 }).finish .arrayFault [b]).pick)
    ∧ (∀ n pg : Nat, e.op.kind = .program → e.phase = .programming n pg →
      n * 65536 + pg * 256 + e.op.data.length ≤ 33554432 →
      let i := (wordAt e.op.params 0).toNat / 65536
      exec (.programCompletion true) s =
        .next ((mapped (s.store.program (n * 65536 + pg * 256) e.op.data) i
          { state := .programmed, ptr := pg + 1 }).finish .done ([byteOf i] ++ half (pg + 1))).pick
      ∧ exec (.programCompletion false) s =
        .next ((mapped (s.store.spoilPage n pg) i { state := .unknown, ptr := 0 }).finish .arrayFault [byteOf i]).pick)

/-- R78, R79, R114, R115: the end of VERIFYING. A CRC-32 that differs completes with CHECK_FAILED and the computed value; one that
matches begins a COMMIT entry with the generation counter plus one. With the append point at 2,048 that record is lost at once:
the mode becomes DEGRADED and the COMMIT completes with ARRAY_FAULT (log entry 15). -/
def Obligations.CommitVerifyEnds : Prop :=
  ∀ (s : State) (e : InFlight) (v : Vol) (x : Volume) (sl : Slot) (len : Nat), s.engine = some e → e.op.kind = .commit →
    e.op.vol = some v → e.phase = .verifying → s.vols[v] = some x → x.slotIn .staging = some sl →
    (wordAt e.op.params 0).toNat = len → x.base sl * 65536 + len ≤ 33554432 →
    let crc := crc32 ((List.range len).map (fun o => s.store.read (x.base sl * 65536 + o)))
    (crc ≠ wordAt e.op.params 4 → exec .commitVerifyEnd s = .next (s.finish .checkFailed (be32 crc)).pick)
    ∧ (∀ j, crc = wordAt e.op.params 4 → s.journal = some j → j.append < 2048 →
      exec .commitVerifyEnd s = .next { s with engine := some { e with
        phase := .journaling j.sector
        entry := some { seq := BitVec.ofNat 32 j.seq
                        content := .commit (volByte v) (slotCode sl) (BitVec.ofNat 32 (x.genCounter + 1))
                          (wordAt e.op.params 0) crc }
        tries := 0 } })
    ∧ (∀ j, crc = wordAt e.op.params 4 → s.journal = some j → 2048 ≤ j.append →
      exec .commitVerifyEnd s = .next ({ s with mode := .degraded }.finish .arrayFault []).pick)

/-- R8, R16, R18 to R20, R114, R138 to R140: the completion of a CREATE, DELETE, ACCESS, PIN or UNPIN entry. The entry stands at
the append point, the directory changes, the waiters and the claim that the change reaches are answered and revoked, and the
operation completes with DONE. -/
def Obligations.AdminEntriesComplete : Prop :=
  ∀ (s : State) (e : InFlight) (v : Vol) (en : JEntry) (j : Journal),
    let done (t : State) (body : List Byte) : Res := .next (t.finish .done body).pick
    (∀ label size a b rd wr, s.writes .createVolume e v en j → en.content = .create (volByte v) label size a b rd wr →
      s.vols[v] = none → 1 ≤ size.toNat → size.toNat ≤ 64 → 1 ≤ a.toNat → a.toNat ≤ 255 → 257 ≤ b.toNat → b.toNat ≤ 511 →
      exec .createEntryCompletes s = done (s.recorded en j (s.vols.set v (some
        { label := label, size := size.toNat, baseA := a.toNat, baseB := b.toNat, readers := rd.setWidth 4
          writers := wr.setWidth 4, pinned := false, genCounter := 0, slotA := { state := .empty, image := none }
          slotB := { state := .empty, image := none }, deleting := false }))) (be16 a ++ be16 b))
    ∧ ∀ x, s.vols[v] = some x →
      let left (t : State) (st : Status) (q : Waiter → Bool) : State :=
        { t with waits := s.waits.filter (fun w => !q w), hpi := s.told st (s.waits.filter q) }
      (s.writes .deleteVolume e v en j → en.content = .delete (volByte v) →
        exec .deleteEntryCompletes s = done (left (s.recorded en j (s.vols.set v none)) .gone (fun w => w.vol == v)) [])
      ∧ (∀ rd wr, s.writes .setAccess e v en j → en.content = .access (volByte v) rd wr →
        let t := left (s.recorded en j (s.vols.set v (some { x with readers := rd.setWidth 4, writers := wr.setWidth 4 })))
          .denied (fun w => w.vol == v && !inMask (wr.setWidth 4) w.port)
        ((∀ (c : ClaimIx) cl, s.claimOf v = some c → s.claims[c] = some cl →
            cl.state = .revoking ∨ inMask (wr.setWidth 4) cl.holder = true) →
          exec .accessEntryCompletes s = done t [])
        ∧ (∀ (c : ClaimIx) cl, s.claimOf v = some c → s.claims[c] = some cl → cl.state = .held →
            inMask (wr.setWidth 4) cl.holder = false →
          exec .accessEntryCompletes s = done (t.revoke c .revoked) []))
      ∧ (s.writes .pin e v en j → en.content = .pin (volByte v) →
        let t := s.recorded en j (s.vols.set v (some { x with pinned := true }))
        let u := left t .pinned (fun w => w.vol == v)
        (s.pinen = false → exec .pinEntryCompletes s = done t [])
        ∧ (s.pinen = true →
          ((∀ (c : ClaimIx) cl, s.claimOf v = some c → s.claims[c] = some cl → cl.state = .revoking) →
            exec .pinEntryCompletes s = done u [])
          ∧ (∀ (c : ClaimIx) cl, s.claimOf v = some c → s.claims[c] = some cl → cl.state = .held →
            exec .pinEntryCompletes s = done (u.revoke c .revoked) [])))
      ∧ (s.writes .unpin e v en j → en.content = .unpin (volByte v) →
        exec .unpinEntryCompletes s = done (s.recorded en j (s.vols.set v (some { x with pinned := false }))) [])

/-- R8 to R11, R66, R79, R82, R114: the completion of a STAGE, COMMIT or ROLLBACK entry. The slots change state, the staging map
is attached or discarded, and the operation completes with DONE and the slot now STAGING, or the slot now ACTIVE with its
generation. -/
def Obligations.StagingEntriesComplete : Prop :=
  ∀ (s : State) (e : InFlight) (v : Vol) (en : JEntry) (j : Journal) (c : ClaimIx) (cl : Claim) (x : Volume) (sl : Slot),
    e.op.claim = some c → s.claims[c] = some cl → s.vols[v] = some x →
    let done (t : State) (map : Option (List MapEntry)) (body : List Byte) : Res :=
      .next ({ t with claims := s.claims.set c (some { cl with map := map }) }.finish .done body).pick
    (s.writes .beginStage e v en j → en.content = .stage (volByte v) (slotCode sl) → (x.slot sl).state ≠ .active →
      (x.slot sl.other).state ≠ .staging →
      exec .stageEntryCompletes s =
        done (s.recorded en j (s.vols.set v (some (x.setSlot sl { state := .staging, image := none }))))
          (some (List.replicate x.size { state := .unknown, ptr := 0 })) [slotCode sl])
    ∧ (∀ gen len crc, s.writes .commit e v en j → en.content = .commit (volByte v) (slotCode sl) gen len crc →
      (x.slot sl).state = .staging → gen.toNat = x.genCounter + 1 →
      let y := x.setSlot sl { state := .active, image := some { gen := gen.toNat, len := len.toNat, crc := crc } }
      let former := x.slot sl.other
      let z := if former.state = .active then y.setSlot sl.other { former with state := .previous } else y
      exec .commitEntryCompletes s =
        done (s.recorded en j (s.vols.set v (some { z with genCounter := gen.toNat }))) none (slotCode sl :: be32 gen))
    ∧ (s.writes .rollback e v en j → en.content = .rollback (volByte v) → (x.slot sl).state = .previous →
      (x.slot sl.other).state = .active →
      exec .rollbackEntryCompletes s =
        done (s.recorded en j (s.vols.set v (some ((x.setSlot sl { x.slot sl with state := .active }).setSlot sl.other
          { x.slot sl.other with state := .stale })))) cl.map (slotCode sl :: word (x.slot sl).gen))

/-- R8, R17, R115, R120, R133: a journal entry program that fails. The position is passed over and counted; the record is tried
at the next position, up to 3 in all, or is lost: DEGRADED and ARRAY_FAULT, with the directory as before (after a
DELETE_VOLUME its flag is cleared and grants follow, log entry 13); a COMPACT ends DEGRADED, a FORMAT with ARRAY_FAULT. -/
def Obligations.JournalWriteFaults : Prop :=
  ∀ (s : State) (e : InFlight) (sector : JSector), s.engine = some e → e.phase = .journaling sector →
    let skipped := if s.skipped < 4095 then s.skipped + 1 else s.skipped
    (∀ j, e.own = none → s.journal = some j → j.append < 2048 →
      let t : State := { s with
        store := s.store.spoilPosition j.sector j.append
        journal := some { j with append := j.append + 1 }
        skipped := skipped }
      (e.tries < 2 → j.append < 2047 →
        exec .journalWriteFault s = .next { t with engine := some { e with tries := e.tries + 1 } })
      ∧ (2 ≤ e.tries ∨ j.append = 2047 → e.op.kind ≠ .deleteVolume →
        exec .journalWriteFault s = .next ({ t with mode := .degraded }.finish .arrayFault []).pick)
      ∧ (∀ v, 2 ≤ e.tries ∨ j.append = 2047 → e.op.kind = .deleteVolume → e.op.vol = some v →
        exec .journalWriteFault s = .next (({ t with
          mode := .degraded
          vols := s.vols.set v ((s.vols[v]).map (fun x : Volume => { x with deleting := false })) }.finish .arrayFault
            []).grantAll).pick))
    ∧ (∀ o, e.own = some o → o.pos < 2048 →
      let t : State := { s with store := s.store.spoilPosition sector o.pos, skipped := skipped }
      (e.tries < 2 → o.pos < 2047 → exec .journalWriteFault s =
        .next { t with engine := some { e with tries := e.tries + 1, own := some { o with pos := o.pos + 1 } } })
      ∧ (2 ≤ e.tries ∨ o.pos = 2047 → e.op.kind = .compact →
        exec .journalWriteFault s = .next ({ t with mode := .degraded }.finish .done []).pick)
      ∧ (2 ≤ e.tries ∨ o.pos = 2047 → e.op.kind = .format →
        exec .journalWriteFault s = .next (t.finish .arrayFault []).pick))

/-- R2, R117 to R120: the run of a COMPACT. Its erase is followed by a HEADER of the next epoch in the erased sector, each entry
by the next record of the snapshot, and the SNAP_END makes the sector current; an erase fault ends it DEGRADED. -/
def Obligations.CompactRuns : Prop :=
  ∀ (s : State) (e : InFlight), s.engine = some e → e.op.kind = .compact →
    (∀ n j, e.phase = .erasing n → s.journal = some j →
      exec (.compactEraseEnd true) s = .next { s with
        store := s.store.eraseSector n
        engine := some { e with
          phase := .journaling (if j.sector = .j0 then .j1 else .j0)
          entry := some { seq := 1, content := .header (BitVec.ofNat 32 (if j.epoch = 4294967295 then 1 else j.epoch + 1)) }
          tries := 0
          own := some { pos := 0, seq := 1, written := 0, epoch := if j.epoch = 4294967295 then 1 else j.epoch + 1
                        todo := snapshotItems s.vols } } }
      ∧ exec (.compactEraseEnd false) s =
        .next ({ s with store := s.store.spoilSector n, mode := .degraded }.finish .done []).pick)
    ∧ (∀ sector en o, e.phase = .journaling sector → e.entry = some en → e.own = some o → o.pos < 2048 →
      let st := s.store.program ((if sector = .j0 then 0 else 16777216) + o.pos * 32) (entryBytes en)
      (∀ item rest, o.todo = item :: rest → (∀ n, en.content ≠ .snapEnd n) →
        exec .snapshotEntryCompletes s = .next { s with
          store := st
          engine := some { e with
            entry := some { seq := BitVec.ofNat 32 (o.seq + 1), content := itemRecord s.vols (o.written + 1) item }
            tries := 0
            own := some { o with pos := o.pos + 1, seq := o.seq + 1, written := o.written + 1, todo := rest } } })
      ∧ (∀ n, en.content = .snapEnd n →
        exec .compactSnapEndCompletes s = .next ({ s with
          store := st
          journal := some { sector := sector, epoch := o.epoch, append := o.pos + 1, seq := o.seq + 1 }
          }.finish .done []).pick))

/-- R133: the run of a FORMAT. The erase of J0 is followed by that of J1, then come a HEADER of epoch 1 in J0 and a SNAP_END;
its completion makes J0 current and the mode NORMAL. An erase fault ends it with ARRAY_FAULT. -/
def Obligations.FormatRuns : Prop :=
  ∀ (s : State) (e : InFlight), s.engine = some e → e.op.kind = .format →
    (e.phase = .erasing 0 → exec (.formatEraseEnd true) s =
      .next { s with store := s.store.eraseSector 0, engine := some { e with phase := .erasing 256 } })
    ∧ (e.phase = .erasing 256 → exec (.formatEraseEnd true) s = .next { s with
        store := s.store.eraseSector 256
        skipped := 0
        engine := some { e with
          phase := .journaling .j0, entry := some { seq := 1, content := .header 1 }, tries := 0
          own := some { pos := 0, seq := 1, written := 0, epoch := 1, todo := [.fin] } } })
    ∧ (∀ n, e.phase = .erasing n → exec (.formatEraseEnd false) s =
      .next ({ s with store := s.store.spoilSector n }.finish .arrayFault []).pick)
    ∧ (∀ en o, e.phase = .journaling .j0 → e.entry = some en → e.own = some o → o.pos < 2048 →
      (∀ epoch, en.content = .header epoch → o.todo = [.fin] →
        exec .formatHeaderCompletes s = .next { s with
          store := s.store.program (o.pos * 32) (entryBytes en)
          engine := some { e with
            entry := some { seq := BitVec.ofNat 32 (o.seq + 1), content := .snapEnd (BitVec.ofNat 16 (o.written + 2)) }
            tries := 0
            own := some { o with pos := o.pos + 1, seq := o.seq + 1, written := o.written + 1, todo := [] } } })
      ∧ (∀ n, en.content = .snapEnd n →
        exec .formatSnapEndCompletes s = .next ({ s with
          store := s.store.program (o.pos * 32) (entryBytes en)
          journal := some { sector := .j0, epoch := o.epoch, append := o.pos + 1, seq := o.seq + 1 }
          mode := .normal }.finish .done []).pick))

/-- R147, R148, R151, R153, R183: the end of ROW_WRITING. A row that verifies holds the four parameters and their CRC-32, makes
the state FROZEN and puts the values in force; one that fails makes it DAMAGED with an empty admin set and the defaults. Each
row derives the state it left. -/
def Obligations.RowWritesEnd : Prop :=
  ∀ (s : State) (e : InFlight) (a l eb pb : Byte), s.engine = some e → e.op.kind = .provision → e.phase = .rowWriting →
    e.op.params = [a, l, eb, pb] →
    let row : Row := .bytes a l eb pb (crc32 [a, l, eb, pb])
    exec (.rowWriteEnd true) s = .next ({ s with
        row := row
        prov := .frozen
        values := { admin := a.setWidth 4, lease := l.toNat, eraseBudget := eb.toNat, programBudget := pb.toNat }
        }.finish .done [a, l, eb, pb]).pick
    ∧ exec (.rowWriteEnd false) s = .next ({ s with
        row := .torn
        prov := .damaged
        values := { admin := 0, lease := 50, eraseBudget := 16, programBudget := 4 } }.finish .arrayFault []).pick
    ∧ (provisionParams [a, l, eb, pb] = true → deriveProv row = .frozen) ∧ deriveProv .torn = .damaged

/-! ### Leases, lines, resets -/

/-- R52, R53: a lease runs while its claim is HELD with nothing pending. The end of a unit lowers it by one; the unit that
brings it to 0 ends the claim with EXPIRED, in the same moment (log entry 12). A paused lease, and a free entry, stay. -/
def Obligations.LeasesRunDown : Prop :=
  ∀ (s : State) (c : ClaimIx),
    (s.claims[c] = none → exec (.leaseUnitEnd c) s = .next s ∧ exec (.leaseExpiry c) s = .next s)
    ∧ ∀ cl, s.claims[c] = some cl →
      let expired : State := { s with claims := s.claims.set c (some { cl with lease := 0 }) }.revoke c .expired
      (cl.state = .revoking ∨ 0 < cl.pending → exec (.leaseUnitEnd c) s = .next s ∧ exec (.leaseExpiry c) s = .next s)
      ∧ (cl.state = .held → cl.pending = 0 → 1 < cl.lease →
        exec (.leaseUnitEnd c) s = .next { s with claims := s.claims.set c (some { cl with lease := cl.lease - 1 }) }
          ∧ exec (.leaseExpiry c) s = .next s)
      ∧ (cl.state = .held → cl.pending = 0 → cl.lease ≤ 1 →
        exec (.leaseUnitEnd c) s = .next expired ∧ exec (.leaseExpiry c) s = .next expired)

/-- R135, R141, R144: at the assertion of PINEN every waiter of a pinned volume is removed with PINNED, in list order, then each
HELD claim on a pinned volume is revoked with REVOKED, in rising volume index. The deassertion changes the level alone. -/
def Obligations.PinenLineMoves : Prop :=
  ∀ s : State,
    let pinned (w : Waiter) : Bool := match s.vols[w.vol] with
      | some x => x.pinned
      | none => false
    let t : State := { s with
      pinen := true, waits := s.waits.filter (fun w => !pinned w), hpi := s.told .pinned (s.waits.filter pinned) }
    let revokes (u : State) (v : Vol) : State :=
      match u.vols[v], u.claimOf v with
      | some x, some c =>
        (match u.claims[c] with
         | some cl => if x.pinned = true ∧ cl.state = .held then u.revoke c .revoked else u
         | none => u)
      | _, _ => u
    exec .pinenAssertion s = .next ((List.finRange 32).foldl revokes t)
    ∧ ((∀ v : Vol, ∀ x ∈ s.vols[v], x.pinned = true → ∀ (c : ClaimIx) cl, s.claimOf v = some c → s.claims[c] = some cl →
        cl.state = .revoking) → exec .pinenAssertion s = .next t)
    ∧ exec .pinenDeassertion s = .next { s with pinen := false }

/-- R23, R58, R87, R104, R111, R157, R170 to R173: the assertion of PnRST clears the port's queue, outcome, frame and views, empties
its FIFO, marks its operation in flight for discard, removes its waits, then ends its HELD claims silently in rising volume
index. It leaves the port nothing held or reserved, PnATTN deasserted and PnSDO not driven. The deassertion changes the level
alone and lets the port serve again: PnSDO is driven again while PnSEL is asserted, and no frame is in progress after it. -/
def Obligations.PortResets : Prop :=
  ∀ (p : Port) (s : State),
    let t : State := { s with
      hpi := s.hpi.set p { queue := [], outcome := .none, frame := none, rst := true, sel := s.hpi[p].sel, sdo := [] }
      views := s.views.set p (Vector.replicate 4 none)
      fifos := s.fifos.set p []
      claims := Vector.ofFn (fun c : ClaimIx => (s.claims[c]).map (fun cl : Claim =>
        { cl with pending := cl.pending - (s.fifos[p]).countP (fun o => o.claim == some c) }))
      engine := s.engine.map (fun e : InFlight => if e.port = some p then { e with discard := true } else e)
      waits := s.waits.filter (fun w => w.port != p) }
    let ends (u : State) (v : Vol) : State :=
      match u.heldClaim p v with
      | some c => u.revoke c .silent
      | none => u
    exec (.pnrstAssert p) s = .next ((List.finRange 32).foldl ends t)
    ∧ ((∀ c : ClaimIx, ∀ cl ∈ s.claims[c], cl.holder = p → cl.state = .revoking) → exec (.pnrstAssert p) s = .next t)
    ∧ (s.uniqueLaw → ∃ u, exec (.pnrstAssert p) s = .next u ∧ u.held p = 0 ∧ u.reservations p = 0 ∧ u.serves p = false
        ∧ u.attn p = false ∧ u.drivesSdo p = false)
    ∧ exec (.pnrstDeassert p) s = .next { s with hpi := s.hpi.set p { s.hpi[p] with rst := false } }
    ∧ (s.powered = true → s.resetLine = false → ∃ u, exec (.pnrstDeassert p) s = .next u ∧ u.serves p = true
        ∧ u.drivesSdo p = s.hpi[p].sel)
    ∧ (s.frameLaw → s.hpi[p].rst = true →
      ∃ u, exec (.pnrstDeassert p) s = .next u ∧ u.hpi[p].frame = none ∧ u.frameLaw)

/-- R2, R7, R23, R59, R88, R106, R112, R121, R126, R154, R157, R174: RESET and a loss of power clear the volatile state of ports,
volumes, views, claims, waits, FIFOs, engine and journal, and cut the work in flight short, which leaves its sector, page,
position or row as the moment of the cut decides (log entry 10). The provisioning state and the values in force stay until
start-up derives them, which is the model's choice (log entry 6). No port of a part under RESET drives PnSDO or asserts PnATTN;
the same of a part without power is the model's (log entry 22). RESET_DEASSERT and POWER_ON begin start-up with the
skipped-entry counter at 0; a POWER_ON that meets work in flight cuts it in between (log entry 10). A RESET_DEASSERT of a part
that is not under RESET changes nothing, and a POWER_ON of a part already powered acts as a power-on (log entry 25). -/
def Obligations.DeviceResets : Prop :=
  ∀ (s : State) (cut : Cut) (st : Store) (r : Row),
    let cleared : State := { s with
      hpi := s.hpi.map (fun h => { queue := [], outcome := .none, frame := none, rst := h.rst, sel := h.sel, sdo := [] })
      vols := Vector.replicate 32 none, views := Vector.replicate 4 (Vector.replicate 4 none)
      claims := Vector.replicate 4 none, waits := [], fifos := Vector.replicate 4 [], compactSlot := false, rr := 3
      engine := none, store := st, mode := .starting, journal := none, row := r }
    let kept : Prop := st = s.store ∧ r = s.row
    ((s.engine = none ∧ kept)
      ∨ (∃ e, s.engine = some e ∧
        ((e.phase = .none ∨ e.phase = .verifying) ∧ kept
        ∨ (∃ n, e.phase = .erasing n ∧ st = s.store.spoilSector n ∧ r = s.row)
        ∨ (∃ n pg, e.phase = .programming n pg ∧ st = s.store.spoilPage n pg ∧ r = s.row)
        ∨ (∃ j : JSector, e.phase = .journaling j ∧ cut = .before ∧ kept)
        ∨ (∃ (j : JSector) (k : Nat), e.phase = .journaling j ∧ cut ≠ .before
          ∧ ((∃ o, e.own = some o ∧ o.pos = k) ∨ (e.own = none ∧ ∃ jr, s.journal = some jr ∧ jr.append = k))
          ∧ st = s.store.spoilPosition j k ∧ r = s.row)
        ∨ (e.phase = .rowWriting ∧ st = s.store ∧ ((cut = .before ∧ r = s.row) ∨ (cut = .during ∧ r = .torn)
          ∨ (cut = .after ∧ ∃ a l eb pb, e.op.params = [a, l, eb, pb]
            ∧ r = .bytes a l eb pb (crc32 [a, l, eb, pb])))))) →
      exec (.resetAssert cut) s = .next { cleared with resetLine := true }
      ∧ exec (.powerLoss cut) s = .next { cleared with powered := false }
      ∧ (cut = .during → exec .powerOn s = .next { cleared with
          powered := true, skipped := 0, store := { st with powerOns := st.powerOns + 1 } })
      ∧ ∀ p : Port, ∀ t ∈ [{ cleared with resetLine := true }, { cleared with powered := false }],
          t.drivesSdo p = false ∧ t.attn p = false)
    ∧ exec .resetDeassert s = .next (if s.resetLine then { s with resetLine := false, skipped := 0 } else s)

/-- R7, R121, R125, R147, R148: the end of start-up. The provisioning state and the values in force are derived from the row;
claims, waits and views are empty (the model empties them here once more: log entry 23); with a usable journal sector the
directory and the journal's place are those of replay, the mode is NORMAL and compaction is scheduled at 64 free entries or
fewer; without one the mode is UNFORMATTED. A START_UP_END outside STARTING, without power or under RESET changes nothing, which
is the model's choice (log entry 11). -/
def Obligations.StartUpEnds : Prop :=
  ∀ s : State,
    (s.powered = true → s.resetLine = false → s.mode = .starting → s.engine = none →
      let t : State := { s with
        prov := deriveProv s.row
        values := match deriveProv s.row, s.row with
          | .frozen, .bytes a l eb pb _ =>
            { admin := a.setWidth 4, lease := l.toNat, eraseBudget := eb.toNat, programBudget := pb.toNat }
          | .damaged, _ => { admin := 0, lease := 50, eraseBudget := 16, programBudget := 4 }
          | _, _ => { admin := 0xF, lease := 50, eraseBudget := 16, programBudget := 4 }
        views := Vector.replicate 4 (Vector.replicate 4 none), claims := Vector.replicate 4 none, waits := [] }
      (replay s.store = none → exec .startUpEnd s =
        .next { t with vols := Vector.replicate 32 none, journal := none, skipped := 0, mode := .unformatted })
      ∧ ∀ r, replay s.store = some r → exec .startUpEnd s =
        .next ({ t with vols := r.dir, journal := some r.journal, skipped := r.skipped, mode := .normal
                        compactSlot := s.compactSlot || 2048 - r.journal.append ≤ 64 }).pick)
    ∧ (s.powered = false ∨ s.resetLine = true ∨ s.mode ≠ .starting → exec .startUpEnd s = .next s)

/-- R112, R122 to R125, R128: replay chooses the usable sector, of two the one with the newer epoch, else the higher, else J0; it
reads its positions in order and leaves no slot STAGING and no deletion flag, the append point right after the last position
that is not blank, and the sequence counter after that of the last valid entry. After the SNAP_END a blank position is passed
over, and every other one is applied or skipped and counted as R124 says. Every command keeps the law of the journal: outside
STARTING the directory is the replay of the current sector but for STALE slots that read STAGING there, and whatever replay
finds, at any time, are volumes the part has made, slots sound. -/
def Obligations.ReplayChoosesAndEndsSessions : Prop :=
  (∀ st : Store,
    let e0 := usableEpoch (judged st .j0)
    let e1 := usableEpoch (judged st .j1)
    let newer (a b : Nat) : Prop := a = b + 1 ∨ (a = 1 ∧ b = 4294967295)
    let stopped (r : SlotRec) : SlotRec := if r.state = .staging then { state := .stale, image := none } else r
    (e0 = none ∧ e1 = none ↔ replay st = none)
    ∧ ∀ r, replay st = some r →
      let positions := judged st r.journal.sector
      let b := positions.foldl rebuildStep { dir := Vector.replicate 32 none, last := none, ended := false, skipped := 0 }
      (r.journal.sector = .j0 ↔ ∃ e, e0 = some e ∧ (e1 = none ∨ ∃ f, e1 = some f ∧
        (newer e f ∨ (¬newer f e ∧ f ≤ e))))
      ∧ (if r.journal.sector = .j0 then e0 else e1) = some r.journal.epoch
      ∧ (∀ v : Vol, r.dir[v] = (b.dir[v]).map (fun x : Volume =>
          { x with slotA := stopped x.slotA, slotB := stopped x.slotB }))
      ∧ (∀ v : Vol, ∀ x ∈ r.dir[v], x.slotA.state ≠ .staging ∧ x.slotB.state ≠ .staging ∧ x.deleting = false)
      ∧ r.skipped = b.skipped ∧ r.skipped ≤ 4095 ∧ r.journal.append ≤ 2048
      ∧ (∀ k, r.journal.append ≤ k → k < 2048 → rawPosition st r.journal.sector k = none)
      ∧ (r.journal.append ≠ 0 → rawPosition st r.journal.sector (r.journal.append - 1) ≠ none)
      ∧ ∃ e, (validEntries positions).getLast? = some e ∧ r.journal.seq = e.seq.toNat + 1)
  ∧ (∀ (r : Rebuild) (e : JEntry), r.ended = true →
    let read : Rebuild := rebuildStep r (some (some e))
    let skips : Rebuild := { r with skipped := if r.skipped < 4095 then r.skipped + 1 else r.skipped }
    let back (x : SlotRec) : SlotRec :=
      if x.state = .previous then { x with state := .active }
      else if x.state = .active then { x with state := .stale } else x
    rebuildStep r none = r ∧ rebuildStep r (some none) = skips
    ∧ (31 < (recordVol e.content).toNat → read = skips)
    ∧ ((∃ n, e.content = .header n) ∨ (∃ n, e.content = .snapEnd n) ∨ isSnapBody e.content = true → read = skips)
    ∧ ∀ v : Vol,
      let becomes (x : Option Volume) : Rebuild := { r with dir := r.dir.set v x }
      (∀ label size a b rd wr, e.content = .create (volByte v) label size a b rd wr →
        read = if r.dir[v] = none ∧ 1 ≤ size.toNat ∧ size.toNat ≤ 64 ∧ 1 ≤ a.toNat ∧ a.toNat ≤ 255 ∧ 257 ≤ b.toNat
            ∧ b.toNat ≤ 511 then
          becomes (some { label := label, size := size.toNat, baseA := a.toNat, baseB := b.toNat, readers := rd.setWidth 4
                          writers := wr.setWidth 4, pinned := false, genCounter := 0
                          slotA := { state := .empty, image := none }, slotB := { state := .empty, image := none }
                          deleting := false })
          else skips)
      ∧ (r.dir[v] = none → (∀ label size a b rd wr, e.content ≠ .create (volByte v) label size a b rd wr) →
        recordVol e.content = volByte v → read = skips)
      ∧ ∀ x, r.dir[v] = some x →
        (e.content = .delete (volByte v) → read = becomes none)
        ∧ (∀ rd wr, e.content = .access (volByte v) rd wr →
          read = becomes (some { x with readers := rd.setWidth 4, writers := wr.setWidth 4 }))
        ∧ (e.content = .pin (volByte v) → read = becomes (some { x with pinned := true }))
        ∧ (e.content = .unpin (volByte v) → read = becomes (some { x with pinned := false }))
        ∧ (∀ sl, e.content = .stage (volByte v) (slotCode sl) →
          read = if (x.slot sl).state ≠ .active ∧ (x.slot sl.other).state ≠ .staging then
            becomes (some (x.setSlot sl { state := .staging, image := none })) else skips)
        ∧ (∀ sl gen len crc, e.content = .commit (volByte v) (slotCode sl) gen len crc →
          let y := x.setSlot sl { state := .active, image := some { gen := gen.toNat, len := len.toNat, crc := crc } }
          let former := x.slot sl.other
          let z := if former.state = .active then y.setSlot sl.other { former with state := .previous } else y
          read = if (x.slot sl).state = .staging ∧ gen.toNat = x.genCounter + 1 then
            becomes (some { z with genCounter := gen.toNat }) else skips)
        ∧ (e.content = .rollback (volByte v) →
          read = if x.slotA.state = .previous ∨ x.slotB.state = .previous then
            becomes (some { x with slotA := back x.slotA, slotB := back x.slotB }) else skips))
  ∧ ∀ (c : Instr) (s t : State), s.store.wf = true → s.modeLaw → s.uniqueLaw → s.recordLaw → s.journalLaw →
    exec c s = .next t → t.journalLaw

/-- R118, R122, R123: the snapshot that a COMPACT writes, entry by entry, is valid as it stands, makes its sector usable under
the epoch of its HEADER, and is rebuilt as the directory it was written from, every slot and field alike, with no position
skipped. Deletion flags, which are volatile, are clear. -/
def Obligations.SnapshotsRebuildTheDirectory : Prop :=
  ∀ (d : Directory) (epoch : Nat), 1 ≤ epoch → epoch ≤ 4294967295 →
    (∀ v : Vol, ∀ x ∈ d[v], 1 ≤ x.size ∧ x.size ≤ 64 ∧ 1 ≤ x.baseA ∧ x.baseA ≤ 255 ∧ 257 ≤ x.baseB ∧ x.baseB ≤ 511
      ∧ x.genCounter ≤ 4294967295
      ∧ ∀ sl, ∀ i ∈ (x.slot sl).image, 1 ≤ i.gen ∧ i.gen ≤ 4294967295 ∧ i.len ≤ 4294967295) →
    let records : List JRecord := .header (BitVec.ofNat 32 epoch)
      :: (snapshotItems d).mapIdx (fun i item => itemRecord d (i + 1) item)
    let positions : List (Option (Option JEntry)) :=
      records.mapIdx (fun i r => some (some { seq := BitVec.ofNat 32 (i + 1), content := r }))
    classify none positions = positions
    ∧ usableEpoch positions = some epoch
    ∧ rebuild positions = { dir := d.map (fun x => x.map (fun y => { y with deleting := false }))
                            last := (rebuild positions).last, ended := true, skipped := 0 }

/-- R7, R23, R59, R88, R112, R121, R157: the part right after reset is in STARTING, idle, with every volatile item empty, the
round-robin pointer at P3, and no port holding anything; every law of the part holds in it. The blank array and row are the
model's choice of a factory part (log entries 3, 4 and 6), and so is PnSEL deasserted, on which it rests that no PnSDO is
driven (log entry 5). -/
def Obligations.ResetIsEmptyAndLawful : Prop :=
  State.reset.mode = .starting ∧ State.reset.engine = none ∧ State.reset.rr = 3 ∧ State.reset.compactSlot = false
    ∧ State.reset.journal = none ∧ State.reset.waits = [] ∧ State.reset.pending = []
    ∧ (∀ v : Vol, State.reset.vols[v] = none) ∧ (∀ c : ClaimIx, State.reset.claims[c] = none)
    ∧ (∀ p : Port, State.reset.fifos[p] = []) ∧ (∀ (p : Port) (h : Handle), State.reset.views[p][h] = none)
    ∧ (∀ p : Port, State.reset.hpi[p].queue = [] ∧ State.reset.hpi[p].outcome = .none ∧ State.reset.freeEntries p = 8
        ∧ State.reset.attn p = false ∧ State.reset.drivesSdo p = false ∧ State.reset.statusByte p = 0x00)
    ∧ State.reset.store.wf = true ∧ State.reset.entryLaw ∧ State.reset.rangeLaw ∧ State.reset.modeLaw
    ∧ State.reset.idleLaw ∧ State.reset.uniqueLaw ∧ State.reset.waitLaw ∧ State.reset.pinLaw ∧ State.reset.recordLaw
    ∧ State.reset.guardLaw ∧ State.reset.claimedLaw ∧ State.reset.viewLaw ∧ State.reset.slotLaw ∧ State.reset.frameLaw
    ∧ State.reset.journalLaw ∧ State.reset.stagingLaw

/-! ### The array -/

/-- R1, R2, R94: what one byte reads as after a program, an erase, and array work that was cut short or failed. A program sets
its bytes, an erase its sector to 0xFF; spoiled bytes read as free values that may differ after a power-on (log entry 8); every
other byte reads as before. -/
def Obligations.ArrayReadsWhatWasWritten : Prop :=
  ∀ (st : Store) (a : Nat),
    (∀ lo bs, (st.program lo bs).read a = if lo ≤ a then bs.getD (a - lo) (st.read a) else st.read a)
    ∧ (∀ n, (st.eraseSector n).read a = if n * 65536 ≤ a ∧ a < n * 65536 + 65536 then 0xFF else st.read a)
    ∧ (∀ lo n, 0 < n → lo + n ≤ 33554432 →
      (st.spoil lo n).read a = if lo ≤ a ∧ a < lo + n then Config.freeByte st.draws st.powerOns a else st.read a)

/-! ### Laws that every command keeps -/

/-- R1: the array stays in its canonical form: cells rise, none reads as an unlisted byte or lies in spoiled content, and
everything lies in the array. -/
def Obligations.ArrayStaysCanonical : Prop :=
  ∀ (c : Instr) (s t : State), s.store.wf = true → exec c s = .next t → t.store.wf = true

/-- R156 to R158, R169: held responses and reservations of a port never exceed its 8 entries, so that every completion, notice,
grant and answer finds its entry. A frame is in progress only while the port drives PnSDO, and the response that a FETCH has
selected stays the head of the queue. -/
def Obligations.EntriesNeverRunOut : Prop :=
  (∀ (c : Instr) (s t : State), s.unformattedLaw → s.entryLaw → exec c s = .next t → t.entryLaw)
    ∧ ∀ (c : Instr) (s t : State), s.frameLaw → exec c s = .next t → t.frameLaw

/-- R7, R23, R59, R85, R88, R90, R102, R112, R121, R130: in STARTING and UNFORMATTED the part holds nothing of volumes; outside
STARTING an idle engine has no work; FIFOs, append point and skipped-entry counter keep their ranges, and the suspend count that
of the budget of the phase. -/
def Obligations.ModesAndRangesAreKept : Prop :=
  (∀ (c : Instr) (s t : State), s.modeLaw → exec c s = .next t → t.modeLaw)
    ∧ ∀ (c : Instr) (s t : State), s.modeLaw → s.idleLaw → s.rangeLaw → exec c s = .next t → t.idleLaw ∧ t.rangeLaw

/-- R38, R40, R45: no two claims name one volume, and the wait list holds at most 8 entries, never two of one port and volume,
never one whose port holds the claim on its volume. -/
def Obligations.ClaimsAndWaitsStayUnique : Prop :=
  ∀ (c : Instr) (s t : State), s.uniqueLaw → s.waitLaw → exec c s = .next t → t.uniqueLaw ∧ t.waitLaw

/-- R145: while PINEN is asserted, no HELD claim and no waiter names a pinned volume. -/
def Obligations.PinnedVolumesStayFree : Prop :=
  ∀ (c : Instr) (s t : State), s.modeLaw → s.recordLaw → s.uniqueLaw → s.pinLaw → exec c s = .next t → t.pinLaw

/-- R4, R5, R10, R13, R17, R22, R34, R38, R114: every claim names an in-use volume; every view names a slot that is ACTIVE,
PREVIOUS or STALE, with its generation and length; the slots of a volume keep their relation; a volume under deletion has no
claim and no view, and the target of a STAGE no view. The premise on replay is part of the law of the journal, which
ReplayChoosesAndEndsSessions says every command keeps. R39, R70: every staging operation stays bound to a claim on its volume,
and the sector that an ERASE or PROGRAM works on lies in the STAGING slot of that volume; so no other slot shares that sector,
the slot is STAGING in the journal too, no view holds it, and no command but a POWER_ON, which may change what undefined content
reads as (R2), changes a byte of a slot that is not STAGING. -/
def Obligations.DirectoryLawsAreKept : Prop :=
  (∀ (c : Instr) (s t : State), s.modeLaw → s.uniqueLaw →
    (∀ r, replay s.store = some r → ∀ v : Vol, ∀ x ∈ r.dir[v], x.sound) →
    s.recordLaw → s.guardLaw → s.claimedLaw → s.viewLaw → s.slotLaw → exec c s = .next t →
    t.recordLaw ∧ t.guardLaw ∧ t.claimedLaw ∧ t.viewLaw ∧ t.slotLaw)
  ∧ (∀ (c : Instr) (s t : State), s.modeLaw → s.uniqueLaw → s.bindLaw → s.stagingLaw → exec c s = .next t →
    t.bindLaw ∧ t.stagingLaw)
  ∧ (∀ (s : State) (e : InFlight) (n : Nat), s.viewLaw → s.journalLaw → s.stagingLaw → s.engine = some e →
    e.workSector = some n →
    ∀ (v : Vol) (x : Volume) (sl : Slot), s.vols[v] = some x → x.base sl ≤ n → n < x.base sl + x.size →
      e.op.vol = some v ∧ (x.slot sl).state = .staging ∧ s.viewCount v sl = 0
      ∧ ∀ j ∈ s.journal, ∃ y ∈ (rebuild (judged s.store j.sector)).dir[v], (y.slot sl).state = .staging)
  ∧ ∀ (c : Instr) (s t : State), s.modeLaw → s.journalLaw → s.stagingLaw → c ≠ .powerOn → exec c s = .next t →
    ∀ (v : Vol) (x : Volume) (sl : Slot) (a : Nat), s.vols[v] = some x → (x.slot sl).state ≠ .staging →
      x.base sl * 65536 ≤ a → a < (x.base sl + x.size) * 65536 → t.store.read a = s.store.read a

/-- R4, R10: from its creation to its deletion a volume keeps its label, its slot size and both base sectors, and its generation
counter never decreases. -/
def Obligations.VolumesKeepTheirPlace : Prop :=
  ∀ (c : Instr) (s t : State) (v : Vol) (x y : Volume), s.mode ≠ .starting → s.vols[v] = some x → exec c s = .next t →
    t.vols[v] = some y →
    y.label = x.label ∧ y.size = x.size ∧ y.baseA = x.baseA ∧ y.baseB = x.baseB ∧ x.genCounter ≤ y.genCounter

/-- R155: a provisioning row that derives FROZEN stays as it is through every command, and with it the provisioning state and
the values in force. -/
def Obligations.FrozenRowsStay : Prop :=
  ∀ (c : Instr) (s t : State),
    let frozen (u : State) : Prop := deriveProv u.row = .frozen ∧ (∀ e ∈ u.engine, e.phase ≠ .rowWriting)
      ∧ (u.mode ≠ .starting → u.prov = .frozen ∧ u.values = valuesOf .frozen u.row)
    s.startingLaw → frozen s → exec c s = .next t → frozen t ∧ t.row = s.row
end

