-- ==== Sys2Proof/Laws/State.lean ====
section
/-! SUPPORT. What each update of one item leaves in every field, one lemma for each field of each update, so that no proof
unfolds a record update. -/

namespace Sys2Proof.Machine

variable (s : State)

/-! ### `setHpi` -/

@[simp] theorem State.setHpi_powered (p : Port) (h : Hpi) : (s.setHpi p h).powered = s.powered := rfl
@[simp] theorem State.setHpi_resetLine (p : Port) (h : Hpi) : (s.setHpi p h).resetLine = s.resetLine := rfl
@[simp] theorem State.setHpi_pinen (p : Port) (h : Hpi) : (s.setHpi p h).pinen = s.pinen := rfl
@[simp] theorem State.setHpi_hpi (p : Port) (h : Hpi) : (s.setHpi p h).hpi = s.hpi.set p h := rfl
@[simp] theorem State.setHpi_vols (p : Port) (h : Hpi) : (s.setHpi p h).vols = s.vols := rfl
@[simp] theorem State.setHpi_views (p : Port) (h : Hpi) : (s.setHpi p h).views = s.views := rfl
@[simp] theorem State.setHpi_claims (p : Port) (h : Hpi) : (s.setHpi p h).claims = s.claims := rfl
@[simp] theorem State.setHpi_waits (p : Port) (h : Hpi) : (s.setHpi p h).waits = s.waits := rfl
@[simp] theorem State.setHpi_fifos (p : Port) (h : Hpi) : (s.setHpi p h).fifos = s.fifos := rfl
@[simp] theorem State.setHpi_compactSlot (p : Port) (h : Hpi) : (s.setHpi p h).compactSlot = s.compactSlot := rfl
@[simp] theorem State.setHpi_rr (p : Port) (h : Hpi) : (s.setHpi p h).rr = s.rr := rfl
@[simp] theorem State.setHpi_engine (p : Port) (h : Hpi) : (s.setHpi p h).engine = s.engine := rfl
@[simp] theorem State.setHpi_store (p : Port) (h : Hpi) : (s.setHpi p h).store = s.store := rfl
@[simp] theorem State.setHpi_mode (p : Port) (h : Hpi) : (s.setHpi p h).mode = s.mode := rfl
@[simp] theorem State.setHpi_journal (p : Port) (h : Hpi) : (s.setHpi p h).journal = s.journal := rfl
@[simp] theorem State.setHpi_skipped (p : Port) (h : Hpi) : (s.setHpi p h).skipped = s.skipped := rfl
@[simp] theorem State.setHpi_row (p : Port) (h : Hpi) : (s.setHpi p h).row = s.row := rfl
@[simp] theorem State.setHpi_prov (p : Port) (h : Hpi) : (s.setHpi p h).prov = s.prov := rfl
@[simp] theorem State.setHpi_values (p : Port) (h : Hpi) : (s.setHpi p h).values = s.values := rfl
@[simp] theorem State.setHpi_pending (p : Port) (h : Hpi) : (s.setHpi p h).pending = s.pending := rfl

/-! ### `push` -/

@[simp] theorem State.push_powered (p : Port) (r : Response) : (s.push p r).powered = s.powered := rfl
@[simp] theorem State.push_resetLine (p : Port) (r : Response) : (s.push p r).resetLine = s.resetLine := rfl
@[simp] theorem State.push_pinen (p : Port) (r : Response) : (s.push p r).pinen = s.pinen := rfl
@[simp] theorem State.push_hpi (p : Port) (r : Response) :
    (s.push p r).hpi = s.hpi.set p { s.hpi[p] with queue := s.hpi[p].queue ++ [r] } := rfl
@[simp] theorem State.push_vols (p : Port) (r : Response) : (s.push p r).vols = s.vols := rfl
@[simp] theorem State.push_views (p : Port) (r : Response) : (s.push p r).views = s.views := rfl
@[simp] theorem State.push_claims (p : Port) (r : Response) : (s.push p r).claims = s.claims := rfl
@[simp] theorem State.push_waits (p : Port) (r : Response) : (s.push p r).waits = s.waits := rfl
@[simp] theorem State.push_fifos (p : Port) (r : Response) : (s.push p r).fifos = s.fifos := rfl
@[simp] theorem State.push_compactSlot (p : Port) (r : Response) : (s.push p r).compactSlot = s.compactSlot := rfl
@[simp] theorem State.push_rr (p : Port) (r : Response) : (s.push p r).rr = s.rr := rfl
@[simp] theorem State.push_engine (p : Port) (r : Response) : (s.push p r).engine = s.engine := rfl
@[simp] theorem State.push_store (p : Port) (r : Response) : (s.push p r).store = s.store := rfl
@[simp] theorem State.push_mode (p : Port) (r : Response) : (s.push p r).mode = s.mode := rfl
@[simp] theorem State.push_journal (p : Port) (r : Response) : (s.push p r).journal = s.journal := rfl
@[simp] theorem State.push_skipped (p : Port) (r : Response) : (s.push p r).skipped = s.skipped := rfl
@[simp] theorem State.push_row (p : Port) (r : Response) : (s.push p r).row = s.row := rfl
@[simp] theorem State.push_prov (p : Port) (r : Response) : (s.push p r).prov = s.prov := rfl
@[simp] theorem State.push_values (p : Port) (r : Response) : (s.push p r).values = s.values := rfl
@[simp] theorem State.push_pending (p : Port) (r : Response) : (s.push p r).pending = s.pending := rfl

/-! ### `setOutcome` -/

@[simp] theorem State.setOutcome_powered (p : Port) (o : FrameOutcome) : (s.setOutcome p o).powered = s.powered := rfl
@[simp] theorem State.setOutcome_resetLine (p : Port) (o : FrameOutcome) : (s.setOutcome p o).resetLine = s.resetLine := rfl
@[simp] theorem State.setOutcome_pinen (p : Port) (o : FrameOutcome) : (s.setOutcome p o).pinen = s.pinen := rfl
@[simp] theorem State.setOutcome_hpi (p : Port) (o : FrameOutcome) :
    (s.setOutcome p o).hpi = s.hpi.set p { s.hpi[p] with outcome := o } := rfl
@[simp] theorem State.setOutcome_vols (p : Port) (o : FrameOutcome) : (s.setOutcome p o).vols = s.vols := rfl
@[simp] theorem State.setOutcome_views (p : Port) (o : FrameOutcome) : (s.setOutcome p o).views = s.views := rfl
@[simp] theorem State.setOutcome_claims (p : Port) (o : FrameOutcome) : (s.setOutcome p o).claims = s.claims := rfl
@[simp] theorem State.setOutcome_waits (p : Port) (o : FrameOutcome) : (s.setOutcome p o).waits = s.waits := rfl
@[simp] theorem State.setOutcome_fifos (p : Port) (o : FrameOutcome) : (s.setOutcome p o).fifos = s.fifos := rfl
@[simp] theorem State.setOutcome_compactSlot (p : Port) (o : FrameOutcome) :
    (s.setOutcome p o).compactSlot = s.compactSlot := rfl
@[simp] theorem State.setOutcome_rr (p : Port) (o : FrameOutcome) : (s.setOutcome p o).rr = s.rr := rfl
@[simp] theorem State.setOutcome_engine (p : Port) (o : FrameOutcome) : (s.setOutcome p o).engine = s.engine := rfl
@[simp] theorem State.setOutcome_store (p : Port) (o : FrameOutcome) : (s.setOutcome p o).store = s.store := rfl
@[simp] theorem State.setOutcome_mode (p : Port) (o : FrameOutcome) : (s.setOutcome p o).mode = s.mode := rfl
@[simp] theorem State.setOutcome_journal (p : Port) (o : FrameOutcome) : (s.setOutcome p o).journal = s.journal := rfl
@[simp] theorem State.setOutcome_skipped (p : Port) (o : FrameOutcome) : (s.setOutcome p o).skipped = s.skipped := rfl
@[simp] theorem State.setOutcome_row (p : Port) (o : FrameOutcome) : (s.setOutcome p o).row = s.row := rfl
@[simp] theorem State.setOutcome_prov (p : Port) (o : FrameOutcome) : (s.setOutcome p o).prov = s.prov := rfl
@[simp] theorem State.setOutcome_values (p : Port) (o : FrameOutcome) : (s.setOutcome p o).values = s.values := rfl
@[simp] theorem State.setOutcome_pending (p : Port) (o : FrameOutcome) : (s.setOutcome p o).pending = s.pending := rfl

/-! ### `setSelect` -/

@[simp] theorem State.setSelect_powered (p : Port) (b : Bool) : (s.setSelect p b).powered = s.powered := rfl
@[simp] theorem State.setSelect_resetLine (p : Port) (b : Bool) : (s.setSelect p b).resetLine = s.resetLine := rfl
@[simp] theorem State.setSelect_pinen (p : Port) (b : Bool) : (s.setSelect p b).pinen = s.pinen := rfl
@[simp] theorem State.setSelect_hpi (p : Port) (b : Bool) :
    (s.setSelect p b).hpi = s.hpi.set p { s.hpi[p] with sel := b } := rfl
@[simp] theorem State.setSelect_vols (p : Port) (b : Bool) : (s.setSelect p b).vols = s.vols := rfl
@[simp] theorem State.setSelect_views (p : Port) (b : Bool) : (s.setSelect p b).views = s.views := rfl
@[simp] theorem State.setSelect_claims (p : Port) (b : Bool) : (s.setSelect p b).claims = s.claims := rfl
@[simp] theorem State.setSelect_waits (p : Port) (b : Bool) : (s.setSelect p b).waits = s.waits := rfl
@[simp] theorem State.setSelect_fifos (p : Port) (b : Bool) : (s.setSelect p b).fifos = s.fifos := rfl
@[simp] theorem State.setSelect_compactSlot (p : Port) (b : Bool) : (s.setSelect p b).compactSlot = s.compactSlot := rfl
@[simp] theorem State.setSelect_rr (p : Port) (b : Bool) : (s.setSelect p b).rr = s.rr := rfl
@[simp] theorem State.setSelect_engine (p : Port) (b : Bool) : (s.setSelect p b).engine = s.engine := rfl
@[simp] theorem State.setSelect_store (p : Port) (b : Bool) : (s.setSelect p b).store = s.store := rfl
@[simp] theorem State.setSelect_mode (p : Port) (b : Bool) : (s.setSelect p b).mode = s.mode := rfl
@[simp] theorem State.setSelect_journal (p : Port) (b : Bool) : (s.setSelect p b).journal = s.journal := rfl
@[simp] theorem State.setSelect_skipped (p : Port) (b : Bool) : (s.setSelect p b).skipped = s.skipped := rfl
@[simp] theorem State.setSelect_row (p : Port) (b : Bool) : (s.setSelect p b).row = s.row := rfl
@[simp] theorem State.setSelect_prov (p : Port) (b : Bool) : (s.setSelect p b).prov = s.prov := rfl
@[simp] theorem State.setSelect_values (p : Port) (b : Bool) : (s.setSelect p b).values = s.values := rfl
@[simp] theorem State.setSelect_pending (p : Port) (b : Bool) : (s.setSelect p b).pending = s.pending := rfl

/-! ### `openFrame` -/

@[simp] theorem State.openFrame_powered (p : Port) : (s.openFrame p).powered = s.powered := rfl
@[simp] theorem State.openFrame_resetLine (p : Port) : (s.openFrame p).resetLine = s.resetLine := rfl
@[simp] theorem State.openFrame_pinen (p : Port) : (s.openFrame p).pinen = s.pinen := rfl
@[simp] theorem State.openFrame_hpi (p : Port) :
    (s.openFrame p).hpi = s.hpi.set p { s.hpi[p] with
      sel := true, frame := some { status := s.statusByte p, bytes := [], selected := none } } := rfl
@[simp] theorem State.openFrame_vols (p : Port) : (s.openFrame p).vols = s.vols := rfl
@[simp] theorem State.openFrame_views (p : Port) : (s.openFrame p).views = s.views := rfl
@[simp] theorem State.openFrame_claims (p : Port) : (s.openFrame p).claims = s.claims := rfl
@[simp] theorem State.openFrame_waits (p : Port) : (s.openFrame p).waits = s.waits := rfl
@[simp] theorem State.openFrame_fifos (p : Port) : (s.openFrame p).fifos = s.fifos := rfl
@[simp] theorem State.openFrame_compactSlot (p : Port) : (s.openFrame p).compactSlot = s.compactSlot := rfl
@[simp] theorem State.openFrame_rr (p : Port) : (s.openFrame p).rr = s.rr := rfl
@[simp] theorem State.openFrame_engine (p : Port) : (s.openFrame p).engine = s.engine := rfl
@[simp] theorem State.openFrame_store (p : Port) : (s.openFrame p).store = s.store := rfl
@[simp] theorem State.openFrame_mode (p : Port) : (s.openFrame p).mode = s.mode := rfl
@[simp] theorem State.openFrame_journal (p : Port) : (s.openFrame p).journal = s.journal := rfl
@[simp] theorem State.openFrame_skipped (p : Port) : (s.openFrame p).skipped = s.skipped := rfl
@[simp] theorem State.openFrame_row (p : Port) : (s.openFrame p).row = s.row := rfl
@[simp] theorem State.openFrame_prov (p : Port) : (s.openFrame p).prov = s.prov := rfl
@[simp] theorem State.openFrame_values (p : Port) : (s.openFrame p).values = s.values := rfl
@[simp] theorem State.openFrame_pending (p : Port) : (s.openFrame p).pending = s.pending := rfl

/-! ### `closeFrame` -/

@[simp] theorem State.closeFrame_powered (p : Port) (out : List Byte) : (s.closeFrame p out).powered = s.powered := rfl
@[simp] theorem State.closeFrame_resetLine (p : Port) (out : List Byte) :
    (s.closeFrame p out).resetLine = s.resetLine := rfl
@[simp] theorem State.closeFrame_pinen (p : Port) (out : List Byte) : (s.closeFrame p out).pinen = s.pinen := rfl
@[simp] theorem State.closeFrame_hpi (p : Port) (out : List Byte) :
    (s.closeFrame p out).hpi = s.hpi.set p { s.hpi[p] with sel := false, frame := none, sdo := out } := rfl
@[simp] theorem State.closeFrame_vols (p : Port) (out : List Byte) : (s.closeFrame p out).vols = s.vols := rfl
@[simp] theorem State.closeFrame_views (p : Port) (out : List Byte) : (s.closeFrame p out).views = s.views := rfl
@[simp] theorem State.closeFrame_claims (p : Port) (out : List Byte) : (s.closeFrame p out).claims = s.claims := rfl
@[simp] theorem State.closeFrame_waits (p : Port) (out : List Byte) : (s.closeFrame p out).waits = s.waits := rfl
@[simp] theorem State.closeFrame_fifos (p : Port) (out : List Byte) : (s.closeFrame p out).fifos = s.fifos := rfl
@[simp] theorem State.closeFrame_compactSlot (p : Port) (out : List Byte) :
    (s.closeFrame p out).compactSlot = s.compactSlot := rfl
@[simp] theorem State.closeFrame_rr (p : Port) (out : List Byte) : (s.closeFrame p out).rr = s.rr := rfl
@[simp] theorem State.closeFrame_engine (p : Port) (out : List Byte) : (s.closeFrame p out).engine = s.engine := rfl
@[simp] theorem State.closeFrame_store (p : Port) (out : List Byte) : (s.closeFrame p out).store = s.store := rfl
@[simp] theorem State.closeFrame_mode (p : Port) (out : List Byte) : (s.closeFrame p out).mode = s.mode := rfl
@[simp] theorem State.closeFrame_journal (p : Port) (out : List Byte) : (s.closeFrame p out).journal = s.journal := rfl
@[simp] theorem State.closeFrame_skipped (p : Port) (out : List Byte) : (s.closeFrame p out).skipped = s.skipped := rfl
@[simp] theorem State.closeFrame_row (p : Port) (out : List Byte) : (s.closeFrame p out).row = s.row := rfl
@[simp] theorem State.closeFrame_prov (p : Port) (out : List Byte) : (s.closeFrame p out).prov = s.prov := rfl
@[simp] theorem State.closeFrame_values (p : Port) (out : List Byte) : (s.closeFrame p out).values = s.values := rfl
@[simp] theorem State.closeFrame_pending (p : Port) (out : List Byte) : (s.closeFrame p out).pending = s.pending := rfl

/-! ### `popResponse` -/

@[simp] theorem State.popResponse_powered (p : Port) : (s.popResponse p).powered = s.powered := rfl
@[simp] theorem State.popResponse_resetLine (p : Port) : (s.popResponse p).resetLine = s.resetLine := rfl
@[simp] theorem State.popResponse_pinen (p : Port) : (s.popResponse p).pinen = s.pinen := rfl
@[simp] theorem State.popResponse_hpi (p : Port) :
    (s.popResponse p).hpi = s.hpi.set p { s.hpi[p] with queue := s.hpi[p].queue.tail } := rfl
@[simp] theorem State.popResponse_vols (p : Port) : (s.popResponse p).vols = s.vols := rfl
@[simp] theorem State.popResponse_views (p : Port) : (s.popResponse p).views = s.views := rfl
@[simp] theorem State.popResponse_claims (p : Port) : (s.popResponse p).claims = s.claims := rfl
@[simp] theorem State.popResponse_waits (p : Port) : (s.popResponse p).waits = s.waits := rfl
@[simp] theorem State.popResponse_fifos (p : Port) : (s.popResponse p).fifos = s.fifos := rfl
@[simp] theorem State.popResponse_compactSlot (p : Port) : (s.popResponse p).compactSlot = s.compactSlot := rfl
@[simp] theorem State.popResponse_rr (p : Port) : (s.popResponse p).rr = s.rr := rfl
@[simp] theorem State.popResponse_engine (p : Port) : (s.popResponse p).engine = s.engine := rfl
@[simp] theorem State.popResponse_store (p : Port) : (s.popResponse p).store = s.store := rfl
@[simp] theorem State.popResponse_mode (p : Port) : (s.popResponse p).mode = s.mode := rfl
@[simp] theorem State.popResponse_journal (p : Port) : (s.popResponse p).journal = s.journal := rfl
@[simp] theorem State.popResponse_skipped (p : Port) : (s.popResponse p).skipped = s.skipped := rfl
@[simp] theorem State.popResponse_row (p : Port) : (s.popResponse p).row = s.row := rfl
@[simp] theorem State.popResponse_prov (p : Port) : (s.popResponse p).prov = s.prov := rfl
@[simp] theorem State.popResponse_values (p : Port) : (s.popResponse p).values = s.values := rfl
@[simp] theorem State.popResponse_pending (p : Port) : (s.popResponse p).pending = s.pending := rfl

/-! ### `answer` -/

@[simp] theorem State.answer_powered (p : Port) (q : Request) (st : Status) (body : List Byte) :
    (s.answer p q st body).powered = s.powered := rfl
@[simp] theorem State.answer_resetLine (p : Port) (q : Request) (st : Status) (body : List Byte) :
    (s.answer p q st body).resetLine = s.resetLine := rfl
@[simp] theorem State.answer_pinen (p : Port) (q : Request) (st : Status) (body : List Byte) :
    (s.answer p q st body).pinen = s.pinen := rfl
@[simp] theorem State.answer_hpi (p : Port) (q : Request) (st : Status) (body : List Byte) :
    (s.answer p q st body).hpi = s.hpi.set p { s.hpi[p] with
      queue := s.hpi[p].queue ++ [{ tag := q.tag, kind := q.kind, status := st, body := body }] } := rfl
@[simp] theorem State.answer_vols (p : Port) (q : Request) (st : Status) (body : List Byte) :
    (s.answer p q st body).vols = s.vols := rfl
@[simp] theorem State.answer_views (p : Port) (q : Request) (st : Status) (body : List Byte) :
    (s.answer p q st body).views = s.views := rfl
@[simp] theorem State.answer_claims (p : Port) (q : Request) (st : Status) (body : List Byte) :
    (s.answer p q st body).claims = s.claims := rfl
@[simp] theorem State.answer_waits (p : Port) (q : Request) (st : Status) (body : List Byte) :
    (s.answer p q st body).waits = s.waits := rfl
@[simp] theorem State.answer_fifos (p : Port) (q : Request) (st : Status) (body : List Byte) :
    (s.answer p q st body).fifos = s.fifos := rfl
@[simp] theorem State.answer_compactSlot (p : Port) (q : Request) (st : Status) (body : List Byte) :
    (s.answer p q st body).compactSlot = s.compactSlot := rfl
@[simp] theorem State.answer_rr (p : Port) (q : Request) (st : Status) (body : List Byte) :
    (s.answer p q st body).rr = s.rr := rfl
@[simp] theorem State.answer_engine (p : Port) (q : Request) (st : Status) (body : List Byte) :
    (s.answer p q st body).engine = s.engine := rfl
@[simp] theorem State.answer_store (p : Port) (q : Request) (st : Status) (body : List Byte) :
    (s.answer p q st body).store = s.store := rfl
@[simp] theorem State.answer_mode (p : Port) (q : Request) (st : Status) (body : List Byte) :
    (s.answer p q st body).mode = s.mode := rfl
@[simp] theorem State.answer_journal (p : Port) (q : Request) (st : Status) (body : List Byte) :
    (s.answer p q st body).journal = s.journal := rfl
@[simp] theorem State.answer_skipped (p : Port) (q : Request) (st : Status) (body : List Byte) :
    (s.answer p q st body).skipped = s.skipped := rfl
@[simp] theorem State.answer_row (p : Port) (q : Request) (st : Status) (body : List Byte) :
    (s.answer p q st body).row = s.row := rfl
@[simp] theorem State.answer_prov (p : Port) (q : Request) (st : Status) (body : List Byte) :
    (s.answer p q st body).prov = s.prov := rfl
@[simp] theorem State.answer_values (p : Port) (q : Request) (st : Status) (body : List Byte) :
    (s.answer p q st body).values = s.values := rfl
@[simp] theorem State.answer_pending (p : Port) (q : Request) (st : Status) (body : List Byte) :
    (s.answer p q st body).pending = s.pending := rfl

/-! ### `setVol` -/

@[simp] theorem State.setVol_powered (v : Vol) (x : Option Volume) : (s.setVol v x).powered = s.powered := rfl
@[simp] theorem State.setVol_resetLine (v : Vol) (x : Option Volume) : (s.setVol v x).resetLine = s.resetLine := rfl
@[simp] theorem State.setVol_pinen (v : Vol) (x : Option Volume) : (s.setVol v x).pinen = s.pinen := rfl
@[simp] theorem State.setVol_hpi (v : Vol) (x : Option Volume) : (s.setVol v x).hpi = s.hpi := rfl
@[simp] theorem State.setVol_vols (v : Vol) (x : Option Volume) : (s.setVol v x).vols = s.vols.set v x := rfl
@[simp] theorem State.setVol_views (v : Vol) (x : Option Volume) : (s.setVol v x).views = s.views := rfl
@[simp] theorem State.setVol_claims (v : Vol) (x : Option Volume) : (s.setVol v x).claims = s.claims := rfl
@[simp] theorem State.setVol_waits (v : Vol) (x : Option Volume) : (s.setVol v x).waits = s.waits := rfl
@[simp] theorem State.setVol_fifos (v : Vol) (x : Option Volume) : (s.setVol v x).fifos = s.fifos := rfl
@[simp] theorem State.setVol_compactSlot (v : Vol) (x : Option Volume) : (s.setVol v x).compactSlot = s.compactSlot := rfl
@[simp] theorem State.setVol_rr (v : Vol) (x : Option Volume) : (s.setVol v x).rr = s.rr := rfl
@[simp] theorem State.setVol_engine (v : Vol) (x : Option Volume) : (s.setVol v x).engine = s.engine := rfl
@[simp] theorem State.setVol_store (v : Vol) (x : Option Volume) : (s.setVol v x).store = s.store := rfl
@[simp] theorem State.setVol_mode (v : Vol) (x : Option Volume) : (s.setVol v x).mode = s.mode := rfl
@[simp] theorem State.setVol_journal (v : Vol) (x : Option Volume) : (s.setVol v x).journal = s.journal := rfl
@[simp] theorem State.setVol_skipped (v : Vol) (x : Option Volume) : (s.setVol v x).skipped = s.skipped := rfl
@[simp] theorem State.setVol_row (v : Vol) (x : Option Volume) : (s.setVol v x).row = s.row := rfl
@[simp] theorem State.setVol_prov (v : Vol) (x : Option Volume) : (s.setVol v x).prov = s.prov := rfl
@[simp] theorem State.setVol_values (v : Vol) (x : Option Volume) : (s.setVol v x).values = s.values := rfl
@[simp] theorem State.setVol_pending (v : Vol) (x : Option Volume) : (s.setVol v x).pending = s.pending := rfl

/-! ### `onVol` -/

@[simp] theorem State.onVol_powered (v : Vol) (f : Volume → Volume) : (s.onVol v f).powered = s.powered := rfl
@[simp] theorem State.onVol_resetLine (v : Vol) (f : Volume → Volume) : (s.onVol v f).resetLine = s.resetLine := rfl
@[simp] theorem State.onVol_pinen (v : Vol) (f : Volume → Volume) : (s.onVol v f).pinen = s.pinen := rfl
@[simp] theorem State.onVol_hpi (v : Vol) (f : Volume → Volume) : (s.onVol v f).hpi = s.hpi := rfl
@[simp] theorem State.onVol_vols (v : Vol) (f : Volume → Volume) :
    (s.onVol v f).vols = s.vols.set v (s.vols[v].map f) := rfl
@[simp] theorem State.onVol_views (v : Vol) (f : Volume → Volume) : (s.onVol v f).views = s.views := rfl
@[simp] theorem State.onVol_claims (v : Vol) (f : Volume → Volume) : (s.onVol v f).claims = s.claims := rfl
@[simp] theorem State.onVol_waits (v : Vol) (f : Volume → Volume) : (s.onVol v f).waits = s.waits := rfl
@[simp] theorem State.onVol_fifos (v : Vol) (f : Volume → Volume) : (s.onVol v f).fifos = s.fifos := rfl
@[simp] theorem State.onVol_compactSlot (v : Vol) (f : Volume → Volume) : (s.onVol v f).compactSlot = s.compactSlot := rfl
@[simp] theorem State.onVol_rr (v : Vol) (f : Volume → Volume) : (s.onVol v f).rr = s.rr := rfl
@[simp] theorem State.onVol_engine (v : Vol) (f : Volume → Volume) : (s.onVol v f).engine = s.engine := rfl
@[simp] theorem State.onVol_store (v : Vol) (f : Volume → Volume) : (s.onVol v f).store = s.store := rfl
@[simp] theorem State.onVol_mode (v : Vol) (f : Volume → Volume) : (s.onVol v f).mode = s.mode := rfl
@[simp] theorem State.onVol_journal (v : Vol) (f : Volume → Volume) : (s.onVol v f).journal = s.journal := rfl
@[simp] theorem State.onVol_skipped (v : Vol) (f : Volume → Volume) : (s.onVol v f).skipped = s.skipped := rfl
@[simp] theorem State.onVol_row (v : Vol) (f : Volume → Volume) : (s.onVol v f).row = s.row := rfl
@[simp] theorem State.onVol_prov (v : Vol) (f : Volume → Volume) : (s.onVol v f).prov = s.prov := rfl
@[simp] theorem State.onVol_values (v : Vol) (f : Volume → Volume) : (s.onVol v f).values = s.values := rfl
@[simp] theorem State.onVol_pending (v : Vol) (f : Volume → Volume) : (s.onVol v f).pending = s.pending := rfl

/-! ### `setClaim` -/

@[simp] theorem State.setClaim_powered (c : ClaimIx) (x : Option Claim) : (s.setClaim c x).powered = s.powered := rfl
@[simp] theorem State.setClaim_resetLine (c : ClaimIx) (x : Option Claim) : (s.setClaim c x).resetLine = s.resetLine := rfl
@[simp] theorem State.setClaim_pinen (c : ClaimIx) (x : Option Claim) : (s.setClaim c x).pinen = s.pinen := rfl
@[simp] theorem State.setClaim_hpi (c : ClaimIx) (x : Option Claim) : (s.setClaim c x).hpi = s.hpi := rfl
@[simp] theorem State.setClaim_vols (c : ClaimIx) (x : Option Claim) : (s.setClaim c x).vols = s.vols := rfl
@[simp] theorem State.setClaim_views (c : ClaimIx) (x : Option Claim) : (s.setClaim c x).views = s.views := rfl
@[simp] theorem State.setClaim_claims (c : ClaimIx) (x : Option Claim) : (s.setClaim c x).claims = s.claims.set c x := rfl
@[simp] theorem State.setClaim_waits (c : ClaimIx) (x : Option Claim) : (s.setClaim c x).waits = s.waits := rfl
@[simp] theorem State.setClaim_fifos (c : ClaimIx) (x : Option Claim) : (s.setClaim c x).fifos = s.fifos := rfl
@[simp] theorem State.setClaim_compactSlot (c : ClaimIx) (x : Option Claim) :
    (s.setClaim c x).compactSlot = s.compactSlot := rfl
@[simp] theorem State.setClaim_rr (c : ClaimIx) (x : Option Claim) : (s.setClaim c x).rr = s.rr := rfl
@[simp] theorem State.setClaim_engine (c : ClaimIx) (x : Option Claim) : (s.setClaim c x).engine = s.engine := rfl
@[simp] theorem State.setClaim_store (c : ClaimIx) (x : Option Claim) : (s.setClaim c x).store = s.store := rfl
@[simp] theorem State.setClaim_mode (c : ClaimIx) (x : Option Claim) : (s.setClaim c x).mode = s.mode := rfl
@[simp] theorem State.setClaim_journal (c : ClaimIx) (x : Option Claim) : (s.setClaim c x).journal = s.journal := rfl
@[simp] theorem State.setClaim_skipped (c : ClaimIx) (x : Option Claim) : (s.setClaim c x).skipped = s.skipped := rfl
@[simp] theorem State.setClaim_row (c : ClaimIx) (x : Option Claim) : (s.setClaim c x).row = s.row := rfl
@[simp] theorem State.setClaim_prov (c : ClaimIx) (x : Option Claim) : (s.setClaim c x).prov = s.prov := rfl
@[simp] theorem State.setClaim_values (c : ClaimIx) (x : Option Claim) : (s.setClaim c x).values = s.values := rfl
@[simp] theorem State.setClaim_pending (c : ClaimIx) (x : Option Claim) : (s.setClaim c x).pending = s.pending := rfl

/-! ### `onClaim` -/

@[simp] theorem State.onClaim_powered (c : ClaimIx) (f : Claim → Claim) : (s.onClaim c f).powered = s.powered := rfl
@[simp] theorem State.onClaim_resetLine (c : ClaimIx) (f : Claim → Claim) : (s.onClaim c f).resetLine = s.resetLine := rfl
@[simp] theorem State.onClaim_pinen (c : ClaimIx) (f : Claim → Claim) : (s.onClaim c f).pinen = s.pinen := rfl
@[simp] theorem State.onClaim_hpi (c : ClaimIx) (f : Claim → Claim) : (s.onClaim c f).hpi = s.hpi := rfl
@[simp] theorem State.onClaim_vols (c : ClaimIx) (f : Claim → Claim) : (s.onClaim c f).vols = s.vols := rfl
@[simp] theorem State.onClaim_views (c : ClaimIx) (f : Claim → Claim) : (s.onClaim c f).views = s.views := rfl
@[simp] theorem State.onClaim_claims (c : ClaimIx) (f : Claim → Claim) :
    (s.onClaim c f).claims = s.claims.set c (s.claims[c].map f) := rfl
@[simp] theorem State.onClaim_waits (c : ClaimIx) (f : Claim → Claim) : (s.onClaim c f).waits = s.waits := rfl
@[simp] theorem State.onClaim_fifos (c : ClaimIx) (f : Claim → Claim) : (s.onClaim c f).fifos = s.fifos := rfl
@[simp] theorem State.onClaim_compactSlot (c : ClaimIx) (f : Claim → Claim) :
    (s.onClaim c f).compactSlot = s.compactSlot := rfl
@[simp] theorem State.onClaim_rr (c : ClaimIx) (f : Claim → Claim) : (s.onClaim c f).rr = s.rr := rfl
@[simp] theorem State.onClaim_engine (c : ClaimIx) (f : Claim → Claim) : (s.onClaim c f).engine = s.engine := rfl
@[simp] theorem State.onClaim_store (c : ClaimIx) (f : Claim → Claim) : (s.onClaim c f).store = s.store := rfl
@[simp] theorem State.onClaim_mode (c : ClaimIx) (f : Claim → Claim) : (s.onClaim c f).mode = s.mode := rfl
@[simp] theorem State.onClaim_journal (c : ClaimIx) (f : Claim → Claim) : (s.onClaim c f).journal = s.journal := rfl
@[simp] theorem State.onClaim_skipped (c : ClaimIx) (f : Claim → Claim) : (s.onClaim c f).skipped = s.skipped := rfl
@[simp] theorem State.onClaim_row (c : ClaimIx) (f : Claim → Claim) : (s.onClaim c f).row = s.row := rfl
@[simp] theorem State.onClaim_prov (c : ClaimIx) (f : Claim → Claim) : (s.onClaim c f).prov = s.prov := rfl
@[simp] theorem State.onClaim_values (c : ClaimIx) (f : Claim → Claim) : (s.onClaim c f).values = s.values := rfl
@[simp] theorem State.onClaim_pending (c : ClaimIx) (f : Claim → Claim) : (s.onClaim c f).pending = s.pending := rfl

/-! ### `setFifo` -/

@[simp] theorem State.setFifo_powered (p : Port) (ops : List Op) : (s.setFifo p ops).powered = s.powered := rfl
@[simp] theorem State.setFifo_resetLine (p : Port) (ops : List Op) : (s.setFifo p ops).resetLine = s.resetLine := rfl
@[simp] theorem State.setFifo_pinen (p : Port) (ops : List Op) : (s.setFifo p ops).pinen = s.pinen := rfl
@[simp] theorem State.setFifo_hpi (p : Port) (ops : List Op) : (s.setFifo p ops).hpi = s.hpi := rfl
@[simp] theorem State.setFifo_vols (p : Port) (ops : List Op) : (s.setFifo p ops).vols = s.vols := rfl
@[simp] theorem State.setFifo_views (p : Port) (ops : List Op) : (s.setFifo p ops).views = s.views := rfl
@[simp] theorem State.setFifo_claims (p : Port) (ops : List Op) : (s.setFifo p ops).claims = s.claims := rfl
@[simp] theorem State.setFifo_waits (p : Port) (ops : List Op) : (s.setFifo p ops).waits = s.waits := rfl
@[simp] theorem State.setFifo_fifos (p : Port) (ops : List Op) : (s.setFifo p ops).fifos = s.fifos.set p ops := rfl
@[simp] theorem State.setFifo_compactSlot (p : Port) (ops : List Op) : (s.setFifo p ops).compactSlot = s.compactSlot := rfl
@[simp] theorem State.setFifo_rr (p : Port) (ops : List Op) : (s.setFifo p ops).rr = s.rr := rfl
@[simp] theorem State.setFifo_engine (p : Port) (ops : List Op) : (s.setFifo p ops).engine = s.engine := rfl
@[simp] theorem State.setFifo_store (p : Port) (ops : List Op) : (s.setFifo p ops).store = s.store := rfl
@[simp] theorem State.setFifo_mode (p : Port) (ops : List Op) : (s.setFifo p ops).mode = s.mode := rfl
@[simp] theorem State.setFifo_journal (p : Port) (ops : List Op) : (s.setFifo p ops).journal = s.journal := rfl
@[simp] theorem State.setFifo_skipped (p : Port) (ops : List Op) : (s.setFifo p ops).skipped = s.skipped := rfl
@[simp] theorem State.setFifo_row (p : Port) (ops : List Op) : (s.setFifo p ops).row = s.row := rfl
@[simp] theorem State.setFifo_prov (p : Port) (ops : List Op) : (s.setFifo p ops).prov = s.prov := rfl
@[simp] theorem State.setFifo_values (p : Port) (ops : List Op) : (s.setFifo p ops).values = s.values := rfl
@[simp] theorem State.setFifo_pending (p : Port) (ops : List Op) : (s.setFifo p ops).pending = s.pending := rfl

/-! ### `setView` -/

@[simp] theorem State.setView_powered (p : Port) (h : Handle) (x : Option View) :
    (s.setView p h x).powered = s.powered := rfl
@[simp] theorem State.setView_resetLine (p : Port) (h : Handle) (x : Option View) :
    (s.setView p h x).resetLine = s.resetLine := rfl
@[simp] theorem State.setView_pinen (p : Port) (h : Handle) (x : Option View) : (s.setView p h x).pinen = s.pinen := rfl
@[simp] theorem State.setView_hpi (p : Port) (h : Handle) (x : Option View) : (s.setView p h x).hpi = s.hpi := rfl
@[simp] theorem State.setView_vols (p : Port) (h : Handle) (x : Option View) : (s.setView p h x).vols = s.vols := rfl
@[simp] theorem State.setView_views (p : Port) (h : Handle) (x : Option View) :
    (s.setView p h x).views = s.views.set p (s.views[p].set h x) := rfl
@[simp] theorem State.setView_claims (p : Port) (h : Handle) (x : Option View) : (s.setView p h x).claims = s.claims := rfl
@[simp] theorem State.setView_waits (p : Port) (h : Handle) (x : Option View) : (s.setView p h x).waits = s.waits := rfl
@[simp] theorem State.setView_fifos (p : Port) (h : Handle) (x : Option View) : (s.setView p h x).fifos = s.fifos := rfl
@[simp] theorem State.setView_compactSlot (p : Port) (h : Handle) (x : Option View) :
    (s.setView p h x).compactSlot = s.compactSlot := rfl
@[simp] theorem State.setView_rr (p : Port) (h : Handle) (x : Option View) : (s.setView p h x).rr = s.rr := rfl
@[simp] theorem State.setView_engine (p : Port) (h : Handle) (x : Option View) : (s.setView p h x).engine = s.engine := rfl
@[simp] theorem State.setView_store (p : Port) (h : Handle) (x : Option View) : (s.setView p h x).store = s.store := rfl
@[simp] theorem State.setView_mode (p : Port) (h : Handle) (x : Option View) : (s.setView p h x).mode = s.mode := rfl
@[simp] theorem State.setView_journal (p : Port) (h : Handle) (x : Option View) :
    (s.setView p h x).journal = s.journal := rfl
@[simp] theorem State.setView_skipped (p : Port) (h : Handle) (x : Option View) :
    (s.setView p h x).skipped = s.skipped := rfl
@[simp] theorem State.setView_row (p : Port) (h : Handle) (x : Option View) : (s.setView p h x).row = s.row := rfl
@[simp] theorem State.setView_prov (p : Port) (h : Handle) (x : Option View) : (s.setView p h x).prov = s.prov := rfl
@[simp] theorem State.setView_values (p : Port) (h : Handle) (x : Option View) : (s.setView p h x).values = s.values := rfl
@[simp] theorem State.setView_pending (p : Port) (h : Handle) (x : Option View) :
    (s.setView p h x).pending = s.pending := rfl

/-! ### `onFlight` -/

@[simp] theorem State.onFlight_powered (f : InFlight → InFlight) : (s.onFlight f).powered = s.powered := rfl
@[simp] theorem State.onFlight_resetLine (f : InFlight → InFlight) : (s.onFlight f).resetLine = s.resetLine := rfl
@[simp] theorem State.onFlight_pinen (f : InFlight → InFlight) : (s.onFlight f).pinen = s.pinen := rfl
@[simp] theorem State.onFlight_hpi (f : InFlight → InFlight) : (s.onFlight f).hpi = s.hpi := rfl
@[simp] theorem State.onFlight_vols (f : InFlight → InFlight) : (s.onFlight f).vols = s.vols := rfl
@[simp] theorem State.onFlight_views (f : InFlight → InFlight) : (s.onFlight f).views = s.views := rfl
@[simp] theorem State.onFlight_claims (f : InFlight → InFlight) : (s.onFlight f).claims = s.claims := rfl
@[simp] theorem State.onFlight_waits (f : InFlight → InFlight) : (s.onFlight f).waits = s.waits := rfl
@[simp] theorem State.onFlight_fifos (f : InFlight → InFlight) : (s.onFlight f).fifos = s.fifos := rfl
@[simp] theorem State.onFlight_compactSlot (f : InFlight → InFlight) : (s.onFlight f).compactSlot = s.compactSlot := rfl
@[simp] theorem State.onFlight_rr (f : InFlight → InFlight) : (s.onFlight f).rr = s.rr := rfl
@[simp] theorem State.onFlight_engine (f : InFlight → InFlight) : (s.onFlight f).engine = s.engine.map f := rfl
@[simp] theorem State.onFlight_store (f : InFlight → InFlight) : (s.onFlight f).store = s.store := rfl
@[simp] theorem State.onFlight_mode (f : InFlight → InFlight) : (s.onFlight f).mode = s.mode := rfl
@[simp] theorem State.onFlight_journal (f : InFlight → InFlight) : (s.onFlight f).journal = s.journal := rfl
@[simp] theorem State.onFlight_skipped (f : InFlight → InFlight) : (s.onFlight f).skipped = s.skipped := rfl
@[simp] theorem State.onFlight_row (f : InFlight → InFlight) : (s.onFlight f).row = s.row := rfl
@[simp] theorem State.onFlight_prov (f : InFlight → InFlight) : (s.onFlight f).prov = s.prov := rfl
@[simp] theorem State.onFlight_values (f : InFlight → InFlight) : (s.onFlight f).values = s.values := rfl
@[simp] theorem State.onFlight_pending (f : InFlight → InFlight) : (s.onFlight f).pending = s.pending := rfl

/-! ### `enter` -/

@[simp] theorem State.enter_powered (ph : Phase) : (s.enter ph).powered = s.powered := rfl
@[simp] theorem State.enter_resetLine (ph : Phase) : (s.enter ph).resetLine = s.resetLine := rfl
@[simp] theorem State.enter_pinen (ph : Phase) : (s.enter ph).pinen = s.pinen := rfl
@[simp] theorem State.enter_hpi (ph : Phase) : (s.enter ph).hpi = s.hpi := rfl
@[simp] theorem State.enter_vols (ph : Phase) : (s.enter ph).vols = s.vols := rfl
@[simp] theorem State.enter_views (ph : Phase) : (s.enter ph).views = s.views := rfl
@[simp] theorem State.enter_claims (ph : Phase) : (s.enter ph).claims = s.claims := rfl
@[simp] theorem State.enter_waits (ph : Phase) : (s.enter ph).waits = s.waits := rfl
@[simp] theorem State.enter_fifos (ph : Phase) : (s.enter ph).fifos = s.fifos := rfl
@[simp] theorem State.enter_compactSlot (ph : Phase) : (s.enter ph).compactSlot = s.compactSlot := rfl
@[simp] theorem State.enter_rr (ph : Phase) : (s.enter ph).rr = s.rr := rfl
@[simp] theorem State.enter_engine (ph : Phase) :
    (s.enter ph).engine = s.engine.map (fun e => { e with phase := ph }) := rfl
@[simp] theorem State.enter_store (ph : Phase) : (s.enter ph).store = s.store := rfl
@[simp] theorem State.enter_mode (ph : Phase) : (s.enter ph).mode = s.mode := rfl
@[simp] theorem State.enter_journal (ph : Phase) : (s.enter ph).journal = s.journal := rfl
@[simp] theorem State.enter_skipped (ph : Phase) : (s.enter ph).skipped = s.skipped := rfl
@[simp] theorem State.enter_row (ph : Phase) : (s.enter ph).row = s.row := rfl
@[simp] theorem State.enter_prov (ph : Phase) : (s.enter ph).prov = s.prov := rfl
@[simp] theorem State.enter_values (ph : Phase) : (s.enter ph).values = s.values := rfl
@[simp] theorem State.enter_pending (ph : Phase) : (s.enter ph).pending = s.pending := rfl

/-! ### `countTry` -/

@[simp] theorem State.countTry_powered : s.countTry.powered = s.powered := rfl
@[simp] theorem State.countTry_resetLine : s.countTry.resetLine = s.resetLine := rfl
@[simp] theorem State.countTry_pinen : s.countTry.pinen = s.pinen := rfl
@[simp] theorem State.countTry_hpi : s.countTry.hpi = s.hpi := rfl
@[simp] theorem State.countTry_vols : s.countTry.vols = s.vols := rfl
@[simp] theorem State.countTry_views : s.countTry.views = s.views := rfl
@[simp] theorem State.countTry_claims : s.countTry.claims = s.claims := rfl
@[simp] theorem State.countTry_waits : s.countTry.waits = s.waits := rfl
@[simp] theorem State.countTry_fifos : s.countTry.fifos = s.fifos := rfl
@[simp] theorem State.countTry_compactSlot : s.countTry.compactSlot = s.compactSlot := rfl
@[simp] theorem State.countTry_rr : s.countTry.rr = s.rr := rfl
@[simp] theorem State.countTry_engine : s.countTry.engine = s.engine.map (fun e => { e with tries := e.tries + 1 }) := rfl
@[simp] theorem State.countTry_store : s.countTry.store = s.store := rfl
@[simp] theorem State.countTry_mode : s.countTry.mode = s.mode := rfl
@[simp] theorem State.countTry_journal : s.countTry.journal = s.journal := rfl
@[simp] theorem State.countTry_skipped : s.countTry.skipped = s.skipped := rfl
@[simp] theorem State.countTry_row : s.countTry.row = s.row := rfl
@[simp] theorem State.countTry_prov : s.countTry.prov = s.prov := rfl
@[simp] theorem State.countTry_values : s.countTry.values = s.values := rfl
@[simp] theorem State.countTry_pending : s.countTry.pending = s.pending := rfl

/-! ### `closeViews` -/

@[simp] theorem State.closeViews_powered (p : Port) : (s.closeViews p).powered = s.powered := rfl
@[simp] theorem State.closeViews_resetLine (p : Port) : (s.closeViews p).resetLine = s.resetLine := rfl
@[simp] theorem State.closeViews_pinen (p : Port) : (s.closeViews p).pinen = s.pinen := rfl
@[simp] theorem State.closeViews_hpi (p : Port) : (s.closeViews p).hpi = s.hpi := rfl
@[simp] theorem State.closeViews_vols (p : Port) : (s.closeViews p).vols = s.vols := rfl
@[simp] theorem State.closeViews_views (p : Port) : (s.closeViews p).views = s.views.set p (Vector.replicate 4 none) := rfl
@[simp] theorem State.closeViews_claims (p : Port) : (s.closeViews p).claims = s.claims := rfl
@[simp] theorem State.closeViews_waits (p : Port) : (s.closeViews p).waits = s.waits := rfl
@[simp] theorem State.closeViews_fifos (p : Port) : (s.closeViews p).fifos = s.fifos := rfl
@[simp] theorem State.closeViews_compactSlot (p : Port) : (s.closeViews p).compactSlot = s.compactSlot := rfl
@[simp] theorem State.closeViews_rr (p : Port) : (s.closeViews p).rr = s.rr := rfl
@[simp] theorem State.closeViews_engine (p : Port) : (s.closeViews p).engine = s.engine := rfl
@[simp] theorem State.closeViews_store (p : Port) : (s.closeViews p).store = s.store := rfl
@[simp] theorem State.closeViews_mode (p : Port) : (s.closeViews p).mode = s.mode := rfl
@[simp] theorem State.closeViews_journal (p : Port) : (s.closeViews p).journal = s.journal := rfl
@[simp] theorem State.closeViews_skipped (p : Port) : (s.closeViews p).skipped = s.skipped := rfl
@[simp] theorem State.closeViews_row (p : Port) : (s.closeViews p).row = s.row := rfl
@[simp] theorem State.closeViews_prov (p : Port) : (s.closeViews p).prov = s.prov := rfl
@[simp] theorem State.closeViews_values (p : Port) : (s.closeViews p).values = s.values := rfl
@[simp] theorem State.closeViews_pending (p : Port) : (s.closeViews p).pending = s.pending := rfl

end Sys2Proof.Machine
end

