-- ==== Sys2Proof/Laws/Frames.lean ====
section
/-! SUPPORT. What a frame comes to: one lemma for each moment, and what a whole SUBMIT frame of a request hands on. -/

namespace Sys2Proof.Machine

variable (s : State) (p : Port)

@[simp] theorem State.setHpi_setHpi (h h' : Hpi) : (s.setHpi p h).setHpi p h' = s.setHpi p h' := by
  simp [State.setHpi]

@[simp] theorem State.setHpi_get (h : Hpi) : (s.setHpi p h).hpi[p] = h := by
  simp [State.setHpi]

/-- A port serves as before while its PnRST line keeps its level. -/
theorem State.setHpi_serves (h : Hpi) (hr : h.rst = s.hpi[p].rst) : (s.setHpi p h).serves p = s.serves p := by
  simp [State.serves, hr]

/-- A frame that has received a whole wire: its bytes, and for a FETCH the head of the queue (R157, R168). -/
theorem Frame.receive_all (f : Frame) (queue : List Response) (wire : List Byte) (h : f.bytes = []) :
    f.receive queue wire wire.length = { f with
      bytes := wire, selected := if wire.head? = some fetchKind then queue.head? else f.selected } := by
  simp [Frame.receive, h]

/-- What has been received first is received again: a frame given in two parts is the frame given at once. -/
theorem Frame.receive_receive (f : Frame) (queue : List Response) (wire : List Byte) (n : Nat) (h : f.bytes = [])
    (hs : f.selected = none) :
    (f.receive queue wire n).receive queue wire wire.length = f.receive queue wire wire.length := by
  cases wire with
  | nil => simp [Frame.receive, h]
  | cons b rest => cases n <;> simp [Frame.receive, h, hs]

/-- A select period on a port that serves ends as its finish says, on the frame that has received its wire. -/
theorem frameStep_whole (wire : List Byte) (fin : Frame → State → Res) (hs : s.serves p = true) :
    frameStep p .whole wire fin s =
      fin { status := s.statusByte p, bytes := wire
            selected := if wire.head? = some fetchKind then s.hpi[p].queue.head? else none } (s.openFrame p) := by
  simp [frameStep, hs, endFrame, State.openFrame, Frame.receive_all]

/-- A frame ends as it would without its first moment: only the latched frame lies between. -/
@[simp] theorem State.closeFrame_openFrame (out : List Byte) : (s.openFrame p).closeFrame p out = s.closeFrame p out := by
  simp [State.openFrame, State.closeFrame]

/-- A request command is a SUBMIT frame of its kind. -/
theorem exec_request (c : Instr) (k : Kind) (f : Submit) (h : c.requestOf = some (k, f)) : exec c s = submitFrame k f s := by
  cases c <;> simp only [Instr.requestOf, Option.some.injEq, Prod.mk.injEq, reduceCtorEq] at h <;>
    obtain ⟨rfl, rfl⟩ := h <;> rfl

/-- A whole frame of a request is evaluated on the state `framed`. -/
theorem submitFrame_whole (k : Kind) (f : Submit) (hs : s.serves f.port = true) (hm : f.moment = .whole) :
    submitFrame k f s = submitRequest (requestOfFrame k f) f.port (s.framed f) := by
  simp [submitFrame, hm, frameStep_whole _ _ _ _ hs, finishSubmit, State.framed, requestOfFrame]

@[simp] theorem freeEntries_closeFrame (q : Port) (out : List Byte) : (s.closeFrame p out).freeEntries q = s.freeEntries q := by
  simp only [State.freeEntries, State.held, State.closeFrame_hpi]
  have : ((s.hpi.set p { s.hpi[p] with sel := false, frame := none, sdo := out })[q]).queue = s.hpi[q].queue := by
    by_cases h : p = q
    · subst h; simp
    · have : p.val ≠ q.val := fun e => h (Fin.ext e)
      simp [Vector.getElem_set_ne, this]
  rw [this]; rfl

/-- A request that is taken meets its mode check on the state `taken`. -/
theorem submitFrame_takes (k : Kind) (f : Submit) (h : s.takes k f) :
    submitFrame k f s =
      if readsOutside (requestOfFrame k f) f.port (s.taken k f) then .fault .outsideArray
      else .next (takeRequest (requestOfFrame k f) f.port (s.taken k f)) := by
  obtain ⟨hs, hm, hst, hl, hn, hf⟩ := h
  have hfull : isFull (requestOfFrame k f) f.port (s.framed f) = false := by
    simp only [isFull, requestOfFrame, State.framed, freeEntries_closeFrame, Bool.or_eq_false_iff, decide_eq_false_iff_not,
      Nat.not_lt, Bool.and_eq_false_iff]
    refine ⟨hn, ?_⟩
    cases hk : isEngineKind k with
    | false => exact Or.inl rfl
    | true => exact Or.inr (decide_eq_false (Nat.not_le.mpr (hf hk)))
  have h1 : ¬((s.framed f).mode = .starting ∨ 262 < (requestOfFrame k f).params.length) := by
    rintro (h | h)
    · exact hst h
    · exact absurd h (by simp [requestOfFrame]; omega)
  rw [submitFrame_whole s k f hs hm, submitRequest, if_neg h1, hfull]
  rfl

/-- Only READ and READ_STAGED read the array when they are taken. -/
theorem readsOutside_other (r : Request) (h1 : r.kind ≠ .read) (h2 : r.kind ≠ .readStaged) : readsOutside r p s = false := by
  have : readOf r p s = none := by
    simp only [readOf, if_neg h1, if_neg h2]
    split <;> rfl
  simp [readsOutside, this]

/-- A request that reads no array and is taken. -/
theorem exec_takes (c : Instr) (k : Kind) (f : Submit) (hc : c.requestOf = some (k, f)) (h : s.takes k f)
    (h1 : k ≠ .read) (h2 : k ≠ .readStaged) :
    exec c s = .next (takeRequest (requestOfFrame k f) f.port (s.taken k f)) := by
  rw [exec_request s c k f hc, submitFrame_takes s k f h, readsOutside_other _ _ _ (by simpa [requestOfFrame] using h1)
    (by simpa [requestOfFrame] using h2)]
  rfl

end Sys2Proof.Machine
end

