-- ==== Sys2Proof/Laws/Observers.lean ====
section
/-! SUPPORT. What the other blocks see of the part does not depend on what a port holds. -/

namespace Sys2Proof.Machine

variable (s : State)

/-! ### `setHpi` -/

@[simp] theorem State.claimNames_setHpi (p : Port) (h : Hpi) (v : Vol) (c : ClaimIx) :
    (s.setHpi p h).claimNames v c = s.claimNames v c := rfl
@[simp] theorem State.claimOf_setHpi (p : Port) (h : Hpi) (v : Vol) :
    (s.setHpi p h).claimOf v = s.claimOf v := rfl
@[simp] theorem State.heldBy_setHpi (p : Port) (h : Hpi) (q : Port) (c : ClaimIx) :
    (s.setHpi p h).heldBy q c = s.heldBy q c := rfl
@[simp] theorem State.heldClaim_setHpi (p : Port) (h : Hpi) (q : Port) (v : Vol) :
    (s.setHpi p h).heldClaim q v = s.heldClaim q v := rfl
@[simp] theorem State.freeClaim_setHpi (p : Port) (h : Hpi) :
    (s.setHpi p h).freeClaim = s.freeClaim := rfl
@[simp] theorem State.waitsFor_setHpi (p : Port) (h : Hpi) (q : Port) (v : Vol) :
    (s.setHpi p h).waitsFor q v = s.waitsFor q v := rfl
@[simp] theorem State.openViews_setHpi (p : Port) (h : Hpi) :
    (s.setHpi p h).openViews = s.openViews := rfl
@[simp] theorem State.viewCount_setHpi (p : Port) (h : Hpi) (v : Vol) (sl : Slot) :
    (s.setHpi p h).viewCount v sl = s.viewCount v sl := rfl
@[simp] theorem State.pinRefuses_setHpi (p : Port) (h : Hpi) (x : Volume) :
    (s.setHpi p h).pinRefuses x = s.pinRefuses x := rfl
@[simp] theorem State.flightReservation_setHpi (p : Port) (h : Hpi) (q : Port) :
    (s.setHpi p h).flightReservation q = s.flightReservation q := rfl
@[simp] theorem State.reservations_setHpi (p : Port) (h : Hpi) (q : Port) :
    (s.setHpi p h).reservations q = s.reservations q := rfl
@[simp] theorem State.standing_setHpi (p : Port) (h : Hpi) (q : Port) (b : Byte) :
    (s.setHpi p h).standing q b = s.standing q b := rfl
@[simp] theorem State.eligible_setHpi (p : Port) (h : Hpi) (w : Waiter) :
    (s.setHpi p h).eligible w = s.eligible w := rfl
@[simp] theorem State.mapOf_setHpi (p : Port) (h : Hpi) (c : Option ClaimIx) :
    (s.setHpi p h).mapOf c = s.mapOf c := rfl
@[simp] theorem State.claimHeld_setHpi (p : Port) (h : Hpi) (c : Option ClaimIx) :
    (s.setHpi p h).claimHeld c = s.claimHeld c := rfl
@[simp] theorem State.flightOf_setHpi (p : Port) (h : Hpi) (c : ClaimIx) :
    (s.setHpi p h).flightOf c = s.flightOf c := rfl
@[simp] theorem State.work_setHpi (p : Port) (h : Hpi) :
    (s.setHpi p h).work = s.work := rfl
@[simp] theorem State.scan_setHpi (p : Port) (h : Hpi) :
    (s.setHpi p h).scan = s.scan := rfl
@[simp] theorem State.isAdmin_setHpi (p : Port) (h : Hpi) (q : Port) :
    (s.setHpi p h).isAdmin q = s.isAdmin q := rfl
@[simp] theorem State.closedHandle_setHpi (p : Port) (h : Hpi) (q : Port) :
    (s.setHpi p h).closedHandle q = s.closedHandle q := rfl
@[simp] theorem State.ownClaim_setHpi (p : Port) (h : Hpi) (q : Port) (v : Vol) :
    (s.setHpi p h).ownClaim q v = s.ownClaim q v := rfl
@[simp] theorem State.busyOn_setHpi (p : Port) (h : Hpi) (v : Vol) (l : List Nat) :
    (s.setHpi p h).busyOn v l = s.busyOn v l := rfl
@[simp] theorem State.compacting_setHpi (p : Port) (h : Hpi) :
    (s.setHpi p h).compacting = s.compacting := rfl

/-! ### `push` -/

@[simp] theorem State.claimNames_push (p : Port) (r : Response) (v : Vol) (c : ClaimIx) :
    (s.push p r).claimNames v c = s.claimNames v c := rfl
@[simp] theorem State.claimOf_push (p : Port) (r : Response) (v : Vol) :
    (s.push p r).claimOf v = s.claimOf v := rfl
@[simp] theorem State.heldBy_push (p : Port) (r : Response) (q : Port) (c : ClaimIx) :
    (s.push p r).heldBy q c = s.heldBy q c := rfl
@[simp] theorem State.heldClaim_push (p : Port) (r : Response) (q : Port) (v : Vol) :
    (s.push p r).heldClaim q v = s.heldClaim q v := rfl
@[simp] theorem State.freeClaim_push (p : Port) (r : Response) :
    (s.push p r).freeClaim = s.freeClaim := rfl
@[simp] theorem State.waitsFor_push (p : Port) (r : Response) (q : Port) (v : Vol) :
    (s.push p r).waitsFor q v = s.waitsFor q v := rfl
@[simp] theorem State.openViews_push (p : Port) (r : Response) :
    (s.push p r).openViews = s.openViews := rfl
@[simp] theorem State.viewCount_push (p : Port) (r : Response) (v : Vol) (sl : Slot) :
    (s.push p r).viewCount v sl = s.viewCount v sl := rfl
@[simp] theorem State.pinRefuses_push (p : Port) (r : Response) (x : Volume) :
    (s.push p r).pinRefuses x = s.pinRefuses x := rfl
@[simp] theorem State.flightReservation_push (p : Port) (r : Response) (q : Port) :
    (s.push p r).flightReservation q = s.flightReservation q := rfl
@[simp] theorem State.reservations_push (p : Port) (r : Response) (q : Port) :
    (s.push p r).reservations q = s.reservations q := rfl
@[simp] theorem State.standing_push (p : Port) (r : Response) (q : Port) (b : Byte) :
    (s.push p r).standing q b = s.standing q b := rfl
@[simp] theorem State.eligible_push (p : Port) (r : Response) (w : Waiter) :
    (s.push p r).eligible w = s.eligible w := rfl
@[simp] theorem State.mapOf_push (p : Port) (r : Response) (c : Option ClaimIx) :
    (s.push p r).mapOf c = s.mapOf c := rfl
@[simp] theorem State.claimHeld_push (p : Port) (r : Response) (c : Option ClaimIx) :
    (s.push p r).claimHeld c = s.claimHeld c := rfl
@[simp] theorem State.flightOf_push (p : Port) (r : Response) (c : ClaimIx) :
    (s.push p r).flightOf c = s.flightOf c := rfl
@[simp] theorem State.work_push (p : Port) (r : Response) :
    (s.push p r).work = s.work := rfl
@[simp] theorem State.scan_push (p : Port) (r : Response) :
    (s.push p r).scan = s.scan := rfl
@[simp] theorem State.isAdmin_push (p : Port) (r : Response) (q : Port) :
    (s.push p r).isAdmin q = s.isAdmin q := rfl
@[simp] theorem State.closedHandle_push (p : Port) (r : Response) (q : Port) :
    (s.push p r).closedHandle q = s.closedHandle q := rfl
@[simp] theorem State.ownClaim_push (p : Port) (r : Response) (q : Port) (v : Vol) :
    (s.push p r).ownClaim q v = s.ownClaim q v := rfl
@[simp] theorem State.busyOn_push (p : Port) (r : Response) (v : Vol) (l : List Nat) :
    (s.push p r).busyOn v l = s.busyOn v l := rfl
@[simp] theorem State.compacting_push (p : Port) (r : Response) :
    (s.push p r).compacting = s.compacting := rfl

/-! ### `setOutcome` -/

@[simp] theorem State.claimNames_setOutcome (p : Port) (o : FrameOutcome) (v : Vol) (c : ClaimIx) :
    (s.setOutcome p o).claimNames v c = s.claimNames v c := rfl
@[simp] theorem State.claimOf_setOutcome (p : Port) (o : FrameOutcome) (v : Vol) :
    (s.setOutcome p o).claimOf v = s.claimOf v := rfl
@[simp] theorem State.heldBy_setOutcome (p : Port) (o : FrameOutcome) (q : Port) (c : ClaimIx) :
    (s.setOutcome p o).heldBy q c = s.heldBy q c := rfl
@[simp] theorem State.heldClaim_setOutcome (p : Port) (o : FrameOutcome) (q : Port) (v : Vol) :
    (s.setOutcome p o).heldClaim q v = s.heldClaim q v := rfl
@[simp] theorem State.freeClaim_setOutcome (p : Port) (o : FrameOutcome) :
    (s.setOutcome p o).freeClaim = s.freeClaim := rfl
@[simp] theorem State.waitsFor_setOutcome (p : Port) (o : FrameOutcome) (q : Port) (v : Vol) :
    (s.setOutcome p o).waitsFor q v = s.waitsFor q v := rfl
@[simp] theorem State.openViews_setOutcome (p : Port) (o : FrameOutcome) :
    (s.setOutcome p o).openViews = s.openViews := rfl
@[simp] theorem State.viewCount_setOutcome (p : Port) (o : FrameOutcome) (v : Vol) (sl : Slot) :
    (s.setOutcome p o).viewCount v sl = s.viewCount v sl := rfl
@[simp] theorem State.pinRefuses_setOutcome (p : Port) (o : FrameOutcome) (x : Volume) :
    (s.setOutcome p o).pinRefuses x = s.pinRefuses x := rfl
@[simp] theorem State.flightReservation_setOutcome (p : Port) (o : FrameOutcome) (q : Port) :
    (s.setOutcome p o).flightReservation q = s.flightReservation q := rfl
@[simp] theorem State.reservations_setOutcome (p : Port) (o : FrameOutcome) (q : Port) :
    (s.setOutcome p o).reservations q = s.reservations q := rfl
@[simp] theorem State.standing_setOutcome (p : Port) (o : FrameOutcome) (q : Port) (b : Byte) :
    (s.setOutcome p o).standing q b = s.standing q b := rfl
@[simp] theorem State.eligible_setOutcome (p : Port) (o : FrameOutcome) (w : Waiter) :
    (s.setOutcome p o).eligible w = s.eligible w := rfl
@[simp] theorem State.mapOf_setOutcome (p : Port) (o : FrameOutcome) (c : Option ClaimIx) :
    (s.setOutcome p o).mapOf c = s.mapOf c := rfl
@[simp] theorem State.claimHeld_setOutcome (p : Port) (o : FrameOutcome) (c : Option ClaimIx) :
    (s.setOutcome p o).claimHeld c = s.claimHeld c := rfl
@[simp] theorem State.flightOf_setOutcome (p : Port) (o : FrameOutcome) (c : ClaimIx) :
    (s.setOutcome p o).flightOf c = s.flightOf c := rfl
@[simp] theorem State.work_setOutcome (p : Port) (o : FrameOutcome) :
    (s.setOutcome p o).work = s.work := rfl
@[simp] theorem State.scan_setOutcome (p : Port) (o : FrameOutcome) :
    (s.setOutcome p o).scan = s.scan := rfl
@[simp] theorem State.isAdmin_setOutcome (p : Port) (o : FrameOutcome) (q : Port) :
    (s.setOutcome p o).isAdmin q = s.isAdmin q := rfl
@[simp] theorem State.closedHandle_setOutcome (p : Port) (o : FrameOutcome) (q : Port) :
    (s.setOutcome p o).closedHandle q = s.closedHandle q := rfl
@[simp] theorem State.ownClaim_setOutcome (p : Port) (o : FrameOutcome) (q : Port) (v : Vol) :
    (s.setOutcome p o).ownClaim q v = s.ownClaim q v := rfl
@[simp] theorem State.busyOn_setOutcome (p : Port) (o : FrameOutcome) (v : Vol) (l : List Nat) :
    (s.setOutcome p o).busyOn v l = s.busyOn v l := rfl
@[simp] theorem State.compacting_setOutcome (p : Port) (o : FrameOutcome) :
    (s.setOutcome p o).compacting = s.compacting := rfl

/-! ### `closeFrame` -/

@[simp] theorem State.claimNames_closeFrame (p : Port) (out : List Byte) (v : Vol) (c : ClaimIx) :
    (s.closeFrame p out).claimNames v c = s.claimNames v c := rfl
@[simp] theorem State.claimOf_closeFrame (p : Port) (out : List Byte) (v : Vol) :
    (s.closeFrame p out).claimOf v = s.claimOf v := rfl
@[simp] theorem State.heldBy_closeFrame (p : Port) (out : List Byte) (q : Port) (c : ClaimIx) :
    (s.closeFrame p out).heldBy q c = s.heldBy q c := rfl
@[simp] theorem State.heldClaim_closeFrame (p : Port) (out : List Byte) (q : Port) (v : Vol) :
    (s.closeFrame p out).heldClaim q v = s.heldClaim q v := rfl
@[simp] theorem State.freeClaim_closeFrame (p : Port) (out : List Byte) :
    (s.closeFrame p out).freeClaim = s.freeClaim := rfl
@[simp] theorem State.waitsFor_closeFrame (p : Port) (out : List Byte) (q : Port) (v : Vol) :
    (s.closeFrame p out).waitsFor q v = s.waitsFor q v := rfl
@[simp] theorem State.openViews_closeFrame (p : Port) (out : List Byte) :
    (s.closeFrame p out).openViews = s.openViews := rfl
@[simp] theorem State.viewCount_closeFrame (p : Port) (out : List Byte) (v : Vol) (sl : Slot) :
    (s.closeFrame p out).viewCount v sl = s.viewCount v sl := rfl
@[simp] theorem State.pinRefuses_closeFrame (p : Port) (out : List Byte) (x : Volume) :
    (s.closeFrame p out).pinRefuses x = s.pinRefuses x := rfl
@[simp] theorem State.flightReservation_closeFrame (p : Port) (out : List Byte) (q : Port) :
    (s.closeFrame p out).flightReservation q = s.flightReservation q := rfl
@[simp] theorem State.reservations_closeFrame (p : Port) (out : List Byte) (q : Port) :
    (s.closeFrame p out).reservations q = s.reservations q := rfl
@[simp] theorem State.standing_closeFrame (p : Port) (out : List Byte) (q : Port) (b : Byte) :
    (s.closeFrame p out).standing q b = s.standing q b := rfl
@[simp] theorem State.eligible_closeFrame (p : Port) (out : List Byte) (w : Waiter) :
    (s.closeFrame p out).eligible w = s.eligible w := rfl
@[simp] theorem State.mapOf_closeFrame (p : Port) (out : List Byte) (c : Option ClaimIx) :
    (s.closeFrame p out).mapOf c = s.mapOf c := rfl
@[simp] theorem State.claimHeld_closeFrame (p : Port) (out : List Byte) (c : Option ClaimIx) :
    (s.closeFrame p out).claimHeld c = s.claimHeld c := rfl
@[simp] theorem State.flightOf_closeFrame (p : Port) (out : List Byte) (c : ClaimIx) :
    (s.closeFrame p out).flightOf c = s.flightOf c := rfl
@[simp] theorem State.work_closeFrame (p : Port) (out : List Byte) :
    (s.closeFrame p out).work = s.work := rfl
@[simp] theorem State.scan_closeFrame (p : Port) (out : List Byte) :
    (s.closeFrame p out).scan = s.scan := rfl
@[simp] theorem State.isAdmin_closeFrame (p : Port) (out : List Byte) (q : Port) :
    (s.closeFrame p out).isAdmin q = s.isAdmin q := rfl
@[simp] theorem State.closedHandle_closeFrame (p : Port) (out : List Byte) (q : Port) :
    (s.closeFrame p out).closedHandle q = s.closedHandle q := rfl
@[simp] theorem State.ownClaim_closeFrame (p : Port) (out : List Byte) (q : Port) (v : Vol) :
    (s.closeFrame p out).ownClaim q v = s.ownClaim q v := rfl
@[simp] theorem State.busyOn_closeFrame (p : Port) (out : List Byte) (v : Vol) (l : List Nat) :
    (s.closeFrame p out).busyOn v l = s.busyOn v l := rfl
@[simp] theorem State.compacting_closeFrame (p : Port) (out : List Byte) :
    (s.closeFrame p out).compacting = s.compacting := rfl

/-! ### `answer` -/

@[simp] theorem State.claimNames_answer (p : Port) (r : Request) (st : Status) (body : List Byte) (v : Vol) (c : ClaimIx) :
    (s.answer p r st body).claimNames v c = s.claimNames v c := rfl
@[simp] theorem State.claimOf_answer (p : Port) (r : Request) (st : Status) (body : List Byte) (v : Vol) :
    (s.answer p r st body).claimOf v = s.claimOf v := rfl
@[simp] theorem State.heldBy_answer (p : Port) (r : Request) (st : Status) (body : List Byte) (q : Port) (c : ClaimIx) :
    (s.answer p r st body).heldBy q c = s.heldBy q c := rfl
@[simp] theorem State.heldClaim_answer (p : Port) (r : Request) (st : Status) (body : List Byte) (q : Port) (v : Vol) :
    (s.answer p r st body).heldClaim q v = s.heldClaim q v := rfl
@[simp] theorem State.freeClaim_answer (p : Port) (r : Request) (st : Status) (body : List Byte) :
    (s.answer p r st body).freeClaim = s.freeClaim := rfl
@[simp] theorem State.waitsFor_answer (p : Port) (r : Request) (st : Status) (body : List Byte) (q : Port) (v : Vol) :
    (s.answer p r st body).waitsFor q v = s.waitsFor q v := rfl
@[simp] theorem State.openViews_answer (p : Port) (r : Request) (st : Status) (body : List Byte) :
    (s.answer p r st body).openViews = s.openViews := rfl
@[simp] theorem State.viewCount_answer (p : Port) (r : Request) (st : Status) (body : List Byte) (v : Vol) (sl : Slot) :
    (s.answer p r st body).viewCount v sl = s.viewCount v sl := rfl
@[simp] theorem State.pinRefuses_answer (p : Port) (r : Request) (st : Status) (body : List Byte) (x : Volume) :
    (s.answer p r st body).pinRefuses x = s.pinRefuses x := rfl
@[simp] theorem State.flightReservation_answer (p : Port) (r : Request) (st : Status) (body : List Byte) (q : Port) :
    (s.answer p r st body).flightReservation q = s.flightReservation q := rfl
@[simp] theorem State.reservations_answer (p : Port) (r : Request) (st : Status) (body : List Byte) (q : Port) :
    (s.answer p r st body).reservations q = s.reservations q := rfl
@[simp] theorem State.standing_answer (p : Port) (r : Request) (st : Status) (body : List Byte) (q : Port) (b : Byte) :
    (s.answer p r st body).standing q b = s.standing q b := rfl
@[simp] theorem State.eligible_answer (p : Port) (r : Request) (st : Status) (body : List Byte) (w : Waiter) :
    (s.answer p r st body).eligible w = s.eligible w := rfl
@[simp] theorem State.mapOf_answer (p : Port) (r : Request) (st : Status) (body : List Byte) (c : Option ClaimIx) :
    (s.answer p r st body).mapOf c = s.mapOf c := rfl
@[simp] theorem State.claimHeld_answer (p : Port) (r : Request) (st : Status) (body : List Byte) (c : Option ClaimIx) :
    (s.answer p r st body).claimHeld c = s.claimHeld c := rfl
@[simp] theorem State.flightOf_answer (p : Port) (r : Request) (st : Status) (body : List Byte) (c : ClaimIx) :
    (s.answer p r st body).flightOf c = s.flightOf c := rfl
@[simp] theorem State.work_answer (p : Port) (r : Request) (st : Status) (body : List Byte) :
    (s.answer p r st body).work = s.work := rfl
@[simp] theorem State.scan_answer (p : Port) (r : Request) (st : Status) (body : List Byte) :
    (s.answer p r st body).scan = s.scan := rfl
@[simp] theorem State.isAdmin_answer (p : Port) (r : Request) (st : Status) (body : List Byte) (q : Port) :
    (s.answer p r st body).isAdmin q = s.isAdmin q := rfl
@[simp] theorem State.closedHandle_answer (p : Port) (r : Request) (st : Status) (body : List Byte) (q : Port) :
    (s.answer p r st body).closedHandle q = s.closedHandle q := rfl
@[simp] theorem State.ownClaim_answer (p : Port) (r : Request) (st : Status) (body : List Byte) (q : Port) (v : Vol) :
    (s.answer p r st body).ownClaim q v = s.ownClaim q v := rfl
@[simp] theorem State.busyOn_answer (p : Port) (r : Request) (st : Status) (body : List Byte) (v : Vol) (l : List Nat) :
    (s.answer p r st body).busyOn v l = s.busyOn v l := rfl
@[simp] theorem State.compacting_answer (p : Port) (r : Request) (st : Status) (body : List Byte) :
    (s.answer p r st body).compacting = s.compacting := rfl

end Sys2Proof.Machine
end

