-- ==== Sys2Proof/Laws/Requests.lean ====
section
/-! SUPPORT. The part right after a request has been taken: everything but leases and the sending port is as before. -/

namespace Sys2Proof.Machine

variable (s : State) (k : Kind) (f : Submit)

/-- Taking a request changes claims and what its port holds, nothing else. -/
theorem State.taken_field : ∃ cs h, s.taken k f = { s with claims := cs, hpi := h } := by
  unfold State.taken State.reload
  split
  · split
    · exact ⟨_, _, rfl⟩
    · split <;> exact ⟨_, _, rfl⟩
  · exact ⟨_, _, rfl⟩
@[simp] theorem State.taken_mode : (s.taken k f).mode = s.mode := by
  obtain ⟨a, b, h⟩ := State.taken_field s k f; rw [h]
@[simp] theorem State.taken_values : (s.taken k f).values = s.values := by
  obtain ⟨a, b, h⟩ := State.taken_field s k f; rw [h]
@[simp] theorem State.taken_prov : (s.taken k f).prov = s.prov := by
  obtain ⟨a, b, h⟩ := State.taken_field s k f; rw [h]
@[simp] theorem State.taken_engine : (s.taken k f).engine = s.engine := by
  obtain ⟨a, b, h⟩ := State.taken_field s k f; rw [h]
@[simp] theorem State.taken_fifos : (s.taken k f).fifos = s.fifos := by
  obtain ⟨a, b, h⟩ := State.taken_field s k f; rw [h]
@[simp] theorem State.taken_vols : (s.taken k f).vols = s.vols := by
  obtain ⟨a, b, h⟩ := State.taken_field s k f; rw [h]
@[simp] theorem State.taken_journal : (s.taken k f).journal = s.journal := by
  obtain ⟨a, b, h⟩ := State.taken_field s k f; rw [h]
@[simp] theorem State.taken_waits : (s.taken k f).waits = s.waits := by
  obtain ⟨a, b, h⟩ := State.taken_field s k f; rw [h]
@[simp] theorem State.taken_views : (s.taken k f).views = s.views := by
  obtain ⟨a, b, h⟩ := State.taken_field s k f; rw [h]
@[simp] theorem State.taken_compactSlot : (s.taken k f).compactSlot = s.compactSlot := by
  obtain ⟨a, b, h⟩ := State.taken_field s k f; rw [h]
@[simp] theorem State.taken_rr : (s.taken k f).rr = s.rr := by
  obtain ⟨a, b, h⟩ := State.taken_field s k f; rw [h]
@[simp] theorem State.taken_pinen : (s.taken k f).pinen = s.pinen := by
  obtain ⟨a, b, h⟩ := State.taken_field s k f; rw [h]
@[simp] theorem State.taken_store : (s.taken k f).store = s.store := by
  obtain ⟨a, b, h⟩ := State.taken_field s k f; rw [h]

/-- The claims of the taken state differ from those before in leases only (R51). -/
theorem State.taken_claims (c : ClaimIx) :
    (s.taken k f).claims[c] = s.claims[c] ∨ ∃ x, s.claims[c] = some x ∧ (s.taken k f).claims[c] = some { x with lease := s.values.lease } := by
  unfold State.taken State.reload
  split
  · split
    · exact Or.inl rfl
    · split
      · exact Or.inl rfl
      · rename_i d _
        by_cases h : d = c
        · subst h
          cases hx : s.claims[d] with
          | none => left; simp [State.onClaim, State.setClaim, State.framed]; simpa using hx
          | some x => right; exact ⟨x, rfl, by
              have : s.claims[d.val] = some x := hx
              simp [State.onClaim, State.setClaim, State.framed, this]⟩
        · left
          have : d.val ≠ c.val := fun e => h (Fin.ext e)
          simp [State.onClaim, State.setClaim, State.framed, Vector.getElem_set_ne, this]
  · exact Or.inl rfl

@[simp] theorem State.taken_claimNames (v : Vol) (c : ClaimIx) :
    (s.taken k f).claimNames v c = s.claimNames v c := by
  rcases State.taken_claims s k f c with h | ⟨x, h1, h2⟩
  · simp only [State.claimNames, h]
  · simp only [State.claimNames, h1, h2]
@[simp] theorem State.taken_heldBy (p : Port) (c : ClaimIx) :
    (s.taken k f).heldBy p c = s.heldBy p c := by
  rcases State.taken_claims s k f c with h | ⟨x, h1, h2⟩
  · simp only [State.heldBy, h]
  · simp only [State.heldBy, h1, h2]
@[simp] theorem State.taken_claimOf (v : Vol)  :
    (s.taken k f).claimOf v = s.claimOf v := by
  simp [State.claimOf]
@[simp] theorem State.taken_heldClaim (p : Port) (v : Vol)  :
    (s.taken k f).heldClaim p v = s.heldClaim p v := by
  simp [State.heldClaim]


/-- A taken request whose mode and parameter count pass goes on to the checks of its kind. -/
theorem takeRequest_passes (h1 : modeRefusal k s.mode = none)
    (h2 : if k = .program then 6 ≤ f.params.length else f.params.length = paramSize k) :
    takeRequest (requestOfFrame k f) f.port (s.taken k f) = takeKind (requestOfFrame k f) f.port (s.taken k f) := by
  have hb : badCount (requestOfFrame k f) = false := by
    by_cases hp : k = .program
    · subst hp
      simp only [if_true] at h2
      simp only [badCount, requestOfFrame, if_true, paramSize]
      exact decide_eq_false (by omega)
    · simp only [hp, if_false] at h2
      simp [badCount, requestOfFrame, hp, h2]
  have hk : (requestOfFrame k f).kind = k := rfl
  simp [takeRequest, hk, h1, hb]

/-- The byte of a volume index names it. -/
@[simp] theorem volIndex_volByte (v : Vol) : volIndex (volByte v) = some v := by
  have : (volByte v).toNat = v.val := by simp [volByte, byteOf]; omega
  simp [volIndex, this]

end Sys2Proof.Machine
end

