-- ==== Sys2Proof/Laws/Engine.lean ====
section
/-! SUPPORT. The arbiter and the start of an operation. -/

namespace Sys2Proof.Machine

variable (s : State)

/-- A busy engine is left alone. -/
theorem State.pick_busy (h : s.engine.isSome = true) : s.pick = s := by simp [State.pick, h]

/-- With no work nothing is picked. -/
theorem State.pick_idle (h : s.work = 0) : s.pick = s := by
  unfold State.pick
  split
  · rfl
  · rw [h]; rfl

/-- No work means empty FIFOs and an empty compaction slot. -/
theorem State.work_zero (h : s.work = 0) : (∀ p : Port, s.fifos[p] = []) ∧ s.compactSlot = false := by
  unfold State.work at h
  refine ⟨?_, ?_⟩
  · intro p
    have h0 : s.fifos[0].length = 0 := by omega
    have h1 : s.fifos[1].length = 0 := by omega
    have h2 : s.fifos[2].length = 0 := by omega
    have h3 : s.fifos[3].length = 0 := by omega
    match p with
    | 0 => exact List.length_eq_zero_iff.mp h0
    | 1 => exact List.length_eq_zero_iff.mp h1
    | 2 => exact List.length_eq_zero_iff.mp h2
    | 3 => exact List.length_eq_zero_iff.mp h3
  · cases hc : s.compactSlot with
    | false => rfl
    | true => simp [hc] at h

/-- The arbiter finds the one FIFO that holds work. -/
theorem State.scan_finds (p : Port) (g : Port → Bool) (hp : g p = true) (hq : ∀ q, q ≠ p → g q = false) :
    s.scan.find? g = some p := by
  have hm : p ∈ s.scan := by
    have all : ∀ r q : Port, q ∈ [r + 1, r + 2, r + 3, r] := by decide
    exact all s.rr p
  rcases h : s.scan.find? g with _ | q
  · exact absurd hp (by simpa using List.find?_eq_none.mp h p hm)
  · have hq' := List.find?_some h
    by_cases e : q = p
    · rw [e]
    · rw [hq q e] at hq'; exact absurd hq' (by simp)

/-- An engine request appended while the engine is idle and no other work exists starts in the same moment (R86, R90). -/
theorem State.enqueue_idle (p : Port) (op : Op) (he : s.engine = none) (hm : s.mode ≠ .starting) (hw : s.work = 0) :
    s.enqueue p op =
      match startOp op { s with rr := p, engine := some (flight (some p) op s.values) } with
      | .runs u => u
      | .ends st body u => u.finish st body := by
  obtain ⟨hf, hc⟩ := s.work_zero hw
  have hset : (s.fifos.set p [op]).set p [] = s.fifos := by
    rw [Vector.set_set]
    have := hf p
    apply Vector.ext
    intro i hi
    by_cases h : p.val = i
    · subst h; simpa using this.symm
    · simp [Vector.getElem_set_ne, h]
  have hwork : (s.setFifo p (s.fifos[p] ++ [op])).work = 1 := by
    rw [hf p]
    simp only [State.work, State.setFifo_fifos, State.setFifo_compactSlot, hc]
    have h0 := hf 0; have h1 := hf 1; have h2 := hf 2; have h3 := hf 3
    match p with
    | 0 => simp_all
    | 1 => simp_all
    | 2 => simp_all
    | 3 => simp_all
  have hfind : (s.setFifo p (s.fifos[p] ++ [op])).scan.find? (fun q => !(s.setFifo p (s.fifos[p] ++ [op])).fifos[q].isEmpty)
      = some p := by
    apply State.scan_finds
    · simp
    · intro q hq
      have : p.val ≠ q.val := fun e => hq (Fin.ext e.symm)
      simpa [Vector.getElem_set_ne, this] using hf q
  have htake : (s.setFifo p (s.fifos[p] ++ [op])).takePick
      = some (op, { s with rr := p, engine := some (flight (some p) op s.values) }) := by
    unfold State.takePick
    rw [hfind]
    simp only [State.setFifo_compactSlot, hc]
    simp [hf p, State.setFifo]
    simpa using hset
  unfold State.enqueue State.pick
  rw [hwork]
  simp only [State.setFifo_engine, State.setFifo_mode, he, hm]
  simp only [pickUpTo, htake]
  cases startOp op { s with rr := p, engine := some (flight (some p) op s.values) } <;> rfl

end Sys2Proof.Machine
end

