-- ==== Sys2Proof/Laws/Ops.lean ====
section
/-! SUPPORT. What each shared operation over claims, waiters and the engine can do: the fields it may change, with every
other field as it was, and its effect on a port's queue. -/

namespace Sys2Proof.Machine

variable (s : State)

/-! ### Searches and tables -/

/-- The lowest entry that passes. -/
theorem claimIxs_find (g : Fin 4 → Bool) (c : Fin 4) (hc : g c = true) (hlt : ∀ d < c, g d = false) :
    claimIxs.find? g = some c := by
  have h0 := hlt 0; have h1 := hlt 1; have h2 := hlt 2
  match c with
  | 0 => simp [claimIxs, hc]
  | 1 => simp [claimIxs, hc, h0 (by decide)]
  | 2 => simp [claimIxs, hc, h0 (by decide), h1 (by decide)]
  | 3 => simp [claimIxs, hc, h0 (by decide), h1 (by decide), h2 (by decide)]

/-- No entry passes. -/
theorem claimIxs_find_none (g : Fin 4 → Bool) : claimIxs.find? g = none ↔ ∀ d, g d = false := by
  constructor
  · intro h d
    simpa using List.find?_eq_none.mp h d ((by decide : ∀ d : Fin 4, d ∈ claimIxs) d)
  · intro h
    simp [claimIxs, h]

/-- Putting back what stands there changes nothing. -/
theorem Vector.set_self {α : Type} (v : Vector α 4) (p : Fin 4) : v.set p v[p] = v := by
  apply Vector.ext
  intro i hi
  by_cases e : p.val = i
  · subst e; simp
  · rw [Vector.getElem_set_ne _ _ e]

/-- The claim reference of R6: none exactly where no claim names the volume. -/
theorem State.claimOf_none (v : Vol) : s.claimOf v = none ↔ ∀ d : ClaimIx, ∀ cl ∈ s.claims[d], cl.vol ≠ v := by
  unfold State.claimOf
  rw [claimIxs_find_none]
  constructor
  · intro h d cl hcl
    have := h d
    unfold State.claimNames at this
    rw [show s.claims[d] = some cl from hcl] at this
    simpa using this
  · intro h d
    unfold State.claimNames
    cases hd : s.claims[d] with
    | none => rfl
    | some cl => simpa using h d cl hd

/-- A claim reference names a claim on the volume. -/
theorem State.claimOf_some (v : Vol) (c : ClaimIx) (h : s.claimOf v = some c) : ∃ cl, s.claims[c] = some cl ∧ cl.vol = v := by
  have := List.find?_some h
  unfold State.claimNames at this
  cases hx : s.claims[c] with
  | none => rw [hx] at this; cases this
  | some cl => rw [hx] at this; exact ⟨cl, rfl, by simpa using this⟩

/-- The HELD claim of a port on a volume is what its name says (R39). -/
theorem State.heldClaim_some (p : Port) (v : Vol) (c : ClaimIx) (h : s.heldClaim p v = some c) :
    ∃ cl, s.claims[c] = some cl ∧ cl.vol = v ∧ cl.holder = p ∧ cl.state = .held := by
  have := List.find?_some h
  unfold State.claimNames State.heldBy at this
  cases hx : s.claims[c] with
  | none => rw [hx] at this; cases this
  | some cl => rw [hx] at this; exact ⟨cl, rfl, by simpa using this⟩

/-- Eligibility of a waiter in the words of R45. -/
theorem State.eligible_iff (w : Waiter) : s.eligible w = true ↔ ∃ x, s.vols[w.vol] = some x ∧ x.deleting = false
    ∧ (∀ d : ClaimIx, ∀ cl ∈ s.claims[d], cl.vol ≠ w.vol) ∧ (x.pinned = false ∨ s.pinen = false) := by
  unfold State.eligible
  cases hx : s.vols[w.vol] with
  | none => simp
  | some x =>
    simp only [Bool.and_eq_true, Option.isNone_iff_eq_none, s.claimOf_none, Bool.not_eq_true', State.pinRefuses,
      Bool.and_eq_false_iff, Option.some.injEq, exists_eq_left']
    tauto

/-! ### Answers -/

/-- One response is a list of one. -/
theorem State.push_adds (p : Port) (r : Response) : s.push p r = { s with hpi := s.adds p [r] } := rfl

/-- The CANCELLED answers of R55, in FIFO order. -/
theorem State.cancelled_adds (p : Port) (ops : List Op) : s.cancelled p ops = { s with
    hpi := s.adds p (ops.map (fun o => { tag := o.tag, kind := o.kind, status := .cancelled, body := [] })) } := by
  induction ops generalizing s with
  | nil =>
    simp only [State.cancelled, State.adds, List.map_nil, List.append_nil]
    change s = { s with hpi := s.hpi.set p s.hpi[p] }
    rw [Vector.set_self]
  | cons o rest ih => simp [State.cancelled, ih, State.push, State.setHpi, State.adds]

/-- Telling one more waiter first. -/
theorem State.told_cons (st : Status) (w : Waiter) (rest : List Waiter) :
    (s.push w.port { tag := w.tag, kind := .claim, status := st, body := [] }).told st rest = s.told st (w :: rest) := by
  apply Vector.ext
  intro i hi
  simp only [State.told, Vector.getElem_ofFn]
  by_cases e : w.port.val = i
  · subst e; simp [List.filter]
  · have e2 : (w.port == (⟨i, hi⟩ : Port)) = false := by
      simp only [beq_eq_false_iff_ne, ne_eq]; intro h; apply e; rw [h]
    simp [List.filter, e2, Vector.getElem_set_ne, e]

/-- The answers of a cause to its waiters (R47). -/
theorem State.answerWaiters_told (st : Status) (ws : List Waiter) :
    s.answerWaiters st ws = { s with hpi := s.told st ws } := by
  induction ws generalizing s with
  | nil =>
    have : s.told st [] = s.hpi := by
      apply Vector.ext; intro i hi; simp [State.told]
    simp [State.answerWaiters, this]
  | cons w rest ih =>
    simp only [State.answerWaiters, ih, s.told_cons]
    rfl

/-- The removal of waiters (R47). -/
theorem State.removeWaiters_told (f : Waiter → Bool) (st : Status) : s.removeWaiters f st =
    { s with waits := s.waits.filter (fun w => !f w), hpi := s.told st (s.waits.filter f) } := by
  simp [State.removeWaiters, State.answerWaiters_told]; rfl

/-! ### Grants and the end of a claim -/

/-- A grant changes the wait list, the Claim Table and the ports alone. -/
theorem State.grantTo_frame (c : ClaimIx) (w : Waiter) : ∃ ws cs h, s.grantTo c w = { s with waits := ws, claims := cs, hpi := h }
    ∧ ws.Sublist s.waits :=
  ⟨_, _, _, rfl, List.erase_sublist⟩

/-- Grants change the wait list, which only loses entries, the Claim Table and the ports alone. -/
theorem grantUpTo_frame (n : Nat) : ∃ ws cs h, grantUpTo n s = { s with waits := ws, claims := cs, hpi := h }
    ∧ ws.Sublist s.waits := by
  induction n generalizing s with
  | zero => exact ⟨s.waits, s.claims, s.hpi, rfl, List.Sublist.refl _⟩
  | succ n ih =>
    unfold grantUpTo
    cases hg : s.nextGrant with
    | none => exact ⟨s.waits, s.claims, s.hpi, rfl, List.Sublist.refl _⟩
    | some t =>
      unfold State.nextGrant at hg
      split at hg
      · rename_i c w _ _
        obtain ⟨ws, cs, h, ht, hsub⟩ := s.grantTo_frame c w
        cases hg
        obtain ⟨ws', cs', h', ht', hsub'⟩ := ih (s.grantTo c w)
        refine ⟨ws', cs', h', ht'.trans (by rw [ht]), hsub'.trans (by rw [ht]; exact hsub)⟩
      · cases hg

/-- R46: what the grants of one moment can change. -/
theorem State.grantAll_frame : ∃ ws cs h, s.grantAll = { s with waits := ws, claims := cs, hpi := h } ∧ ws.Sublist s.waits :=
  grantUpTo_frame s _

/-- R12, R38: the end of a claim changes the directory, the wait list, the Claim Table and the ports alone. -/
theorem State.freeEntry_frame (c : ClaimIx) : ∃ d ws cs h,
    s.freeEntry c = { s with vols := d, waits := ws, claims := cs, hpi := h } ∧ ws.Sublist s.waits := by
  unfold State.freeEntry
  cases s.claims[c] with
  | none => exact ⟨s.vols, s.waits, s.claims, s.hpi, rfl, List.Sublist.refl _⟩
  | some cl =>
    obtain ⟨ws, cs, h, ht, hsub⟩ := ((s.setClaim c none).onVol cl.vol Volume.endSession).grantAll_frame
    exact ⟨_, ws, cs, h, ht, hsub⟩

/-- The notice of a revocation joins the queue of the holder, or nothing does (R55). -/
theorem State.notify_frame (cl : Claim) (n : Notice) (b : Bool) : ∃ h, s.notify cl n b = { s with hpi := h } := by
  cases n <;> exact ⟨_, rfl⟩

/-- R55: the revocation procedure changes the directory, the wait list, the Claim Table, the FIFOs and the ports alone. -/
theorem State.revoke_frame (c : ClaimIx) (n : Notice) : ∃ d ws cs fs h,
    s.revoke c n = { s with vols := d, waits := ws, claims := cs, fifos := fs, hpi := h } ∧ ws.Sublist s.waits := by
  unfold State.revoke
  cases s.claims[c] with
  | none => exact ⟨s.vols, s.waits, s.claims, s.fifos, s.hpi, rfl, List.Sublist.refl _⟩
  | some cl =>
    simp only
    have told : ∀ u : State, ∃ h, (if n = .silent then u else u.cancelled cl.holder
        (s.fifos[cl.holder].filter (Op.boundTo c))) = { u with hpi := h } := by
      intro u
      split
      · exact ⟨u.hpi, rfl⟩
      · exact ⟨_, u.cancelled_adds _ _⟩
    obtain ⟨h1, e1⟩ := told (s.setFifo cl.holder (s.fifos[cl.holder].filter (fun o => !Op.boundTo c o)))
    rw [e1]
    obtain ⟨h2, e2⟩ := State.notify_frame { s.setFifo cl.holder (s.fifos[cl.holder].filter (fun o => !Op.boundTo c o)) with
      hpi := h1 } cl n (s.flightOf c)
    rw [e2]
    split
    · exact ⟨s.vols, s.waits, _, _, h2, rfl, List.Sublist.refl _⟩
    · obtain ⟨d, ws, cs, h, e, hs⟩ := State.freeEntry_frame ((({ s.setFifo cl.holder
        (s.fifos[cl.holder].filter (fun o => !Op.boundTo c o)) with hpi := h2 } : State)).setClaim c
          (some { cl with pending := cl.pending - (s.fifos[cl.holder].filter (Op.boundTo c)).length })) c
      exact ⟨d, ws, cs, _, h, e, hs⟩

/-! ### The engine -/

/-- R56, R103: the claim of a completed operation. -/
theorem State.lowerClaim_frame (c : ClaimIx) : ∃ d ws cs h,
    s.lowerClaim c = { s with vols := d, waits := ws, claims := cs, hpi := h } ∧ ws.Sublist s.waits := by
  unfold State.lowerClaim
  cases hc : s.claims[c] with
  | none => exact ⟨s.vols, s.waits, s.claims, s.hpi, rfl, List.Sublist.refl _⟩
  | some cl =>
    cases hs : cl.state with
    | held => simp only [hs]; exact ⟨s.vols, s.waits, _, s.hpi, rfl, List.Sublist.refl _⟩
    | revoking => simp only [hs]; exact s.freeEntry_frame c

/-- R103: a completion changes the directory, the wait list, the Claim Table and the ports, and leaves the engine idle. -/
theorem State.finish_frame (st : Status) (body : List Byte) : ∃ d ws cs h,
    s.finish st body = { s with vols := d, waits := ws, claims := cs, hpi := h, engine := none } ∧ ws.Sublist s.waits := by
  unfold State.finish
  cases he : s.engine with
  | none => exact ⟨s.vols, s.waits, s.claims, s.hpi, by conv_rhs => rw [← he], List.Sublist.refl _⟩
  | some e =>
    have resp : ∃ h, s.respond e st body = { s with hpi := h } := by
      unfold State.respond
      split
      · exact ⟨s.hpi, rfl⟩
      · split
        · exact ⟨s.hpi, rfl⟩
        · exact ⟨_, rfl⟩
    obtain ⟨h1, e1⟩ := resp
    simp only [e1]
    cases e.op.claim with
    | none => exact ⟨s.vols, s.waits, s.claims, h1, rfl, List.Sublist.refl _⟩
    | some c =>
      obtain ⟨d, ws, cs, h, e2, hs⟩ := State.lowerClaim_frame { s with hpi := h1 } c
      exact ⟨d, ws, cs, h, by simp only [e2], hs⟩

/-- R114, R115: a record begins JOURNALING, or is lost at once and leaves the part DEGRADED. -/
theorem beginRecord_cases (r : JRecord) : (∃ e, beginRecord r s = .runs { s with engine := e })
    ∨ beginRecord r s = .ends .arrayFault [] { s with mode := .degraded } := by
  unfold beginRecord
  split
  · exact .inr rfl
  · split
    · exact .inl ⟨_, rfl⟩
    · exact .inr rfl

/-- R93: a start changes the operation in flight, the deletion flag of a record, and the mode, which it can only make
DEGRADED. -/
theorem startOp_frame (op : Op) : ∃ t, (∃ d e m, t = { s with vols := d, engine := e, mode := m } ∧ (m = s.mode ∨ m = .degraded))
    ∧ (startOp op s = .runs t ∨ ∃ st body, startOp op s = .ends st body t) := by
  have same : ∃ d e m, s = { s with vols := d, engine := e, mode := m } ∧ (m = s.mode ∨ m = .degraded) :=
    ⟨s.vols, s.engine, s.mode, rfl, .inl rfl⟩
  have begun : ∀ r : JRecord, ∃ t, (∃ d e m, t = { s with vols := d, engine := e, mode := m } ∧ (m = s.mode ∨ m = .degraded))
      ∧ (beginRecord r s = .runs t ∨ ∃ st body, beginRecord r s = .ends st body t) := by
    intro r
    rcases beginRecord_cases s r with ⟨e, h⟩ | h
    · exact ⟨_, ⟨s.vols, e, s.mode, rfl, .inl rfl⟩, .inl h⟩
    · exact ⟨_, ⟨s.vols, s.engine, .degraded, rfl, .inr rfl⟩, .inr ⟨_, _, h⟩⟩
  have run : ∀ ph, ∃ d e m, s.enter ph = { s with vols := d, engine := e, mode := m } ∧ (m = s.mode ∨ m = .degraded) :=
    fun ph => ⟨s.vols, _, s.mode, rfl, .inl rfl⟩
  unfold startOp
  split
  · exact ⟨s, same, .inr ⟨_, _, rfl⟩⟩
  split
  · exact ⟨s, same, .inr ⟨_, _, rfl⟩⟩
  unfold startKind
  split
  · unfold startCreate
    split
    · exact ⟨s, same, .inr ⟨_, _, rfl⟩⟩
    · split
      · exact ⟨s, same, .inr ⟨_, _, rfl⟩⟩
      · exact begun _
  · rename_i v _ _
    unfold startDelete
    split
    · exact ⟨s, same, .inr ⟨_, _, rfl⟩⟩
    · split
      · exact ⟨s, same, .inr ⟨_, _, rfl⟩⟩
      · split
        · exact ⟨s, same, .inr ⟨_, _, rfl⟩⟩
        · rcases beginRecord_cases s (.delete (volByte v)) with ⟨e, h⟩ | h <;> rw [h]
          · exact ⟨_, ⟨_, e, s.mode, rfl, .inl rfl⟩, .inl rfl⟩
          · exact ⟨_, ⟨s.vols, s.engine, .degraded, rfl, .inr rfl⟩, .inr ⟨_, _, rfl⟩⟩
  · unfold startAccess
    split
    · exact ⟨s, same, .inr ⟨_, _, rfl⟩⟩
    · split
      · exact ⟨s, same, .inr ⟨_, _, rfl⟩⟩
      · exact begun _
  · unfold startPin
    split
    · exact ⟨s, same, .inr ⟨_, _, rfl⟩⟩
    · exact begun _
  · unfold startUnpin
    split
    · exact ⟨s, same, .inr ⟨_, _, rfl⟩⟩
    · split
      · exact ⟨s, same, .inr ⟨_, _, rfl⟩⟩
      · exact begun _
  · unfold startStage
    split
    · exact ⟨s, same, .inr ⟨_, _, rfl⟩⟩
    · split
      · exact ⟨s, same, .inr ⟨_, _, rfl⟩⟩
      · split
        · exact ⟨s, same, .inr ⟨_, _, rfl⟩⟩
        · exact begun _
  · unfold startErase
    split
    · exact ⟨s, same, .inr ⟨_, _, rfl⟩⟩
    · split
      · exact ⟨s, same, .inr ⟨_, _, rfl⟩⟩
      · split
        · exact ⟨s, same, .inr ⟨_, _, rfl⟩⟩
        · exact ⟨_, run _, .inl rfl⟩
  · unfold startProgram
    split
    · exact ⟨s, same, .inr ⟨_, _, rfl⟩⟩
    · split
      · exact ⟨s, same, .inr ⟨_, _, rfl⟩⟩
      · simp only
        split
        · exact ⟨s, same, .inr ⟨_, _, rfl⟩⟩
        · split
          · exact ⟨s, same, .inr ⟨_, _, rfl⟩⟩
          · split
            · exact ⟨s, same, .inr ⟨_, _, rfl⟩⟩
            · exact ⟨_, run _, .inl rfl⟩
  · unfold startCommit
    split
    · exact ⟨s, same, .inr ⟨_, _, rfl⟩⟩
    · split
      · exact ⟨s, same, .inr ⟨_, _, rfl⟩⟩
      · split
        · exact ⟨s, same, .inr ⟨_, _, rfl⟩⟩
        · split
          · exact ⟨s, same, .inr ⟨_, _, rfl⟩⟩
          · split
            · exact ⟨s, same, .inr ⟨_, _, rfl⟩⟩
            · exact ⟨_, run _, .inl rfl⟩
  · unfold startRollback
    split
    · exact ⟨s, same, .inr ⟨_, _, rfl⟩⟩
    · split
      · exact ⟨s, same, .inr ⟨_, _, rfl⟩⟩
      · split
        · exact ⟨s, same, .inr ⟨_, _, rfl⟩⟩
        · exact begun _
  · unfold startFormat
    split
    · exact ⟨_, run _, .inl rfl⟩
    · exact ⟨s, same, .inr ⟨_, _, rfl⟩⟩
  · unfold startProvision
    split
    · exact ⟨_, run _, .inl rfl⟩
    · exact ⟨s, same, .inr ⟨_, _, rfl⟩⟩
  · unfold startCompact
    split
    · split
      · exact ⟨_, run _, .inl rfl⟩
      · exact ⟨s, same, .inr ⟨_, _, rfl⟩⟩
    · exact ⟨s, same, .inr ⟨_, _, rfl⟩⟩
  · exact ⟨s, same, .inr ⟨_, _, rfl⟩⟩

/-- R90, R91: taking an operation changes the FIFOs, the compaction slot, the pointer and the engine alone. -/
theorem State.takePick_frame (op : Op) (t : State) (h : s.takePick = some (op, t)) :
    ∃ fs b r e, t = { s with fifos := fs, compactSlot := b, rr := r, engine := e } := by
  unfold State.takePick at h
  split at h
  · cases h; exact ⟨s.fifos, false, s.rr, _, rfl⟩
  · split at h
    · cases h
    · split at h
      · cases h
      · cases h; exact ⟨_, s.compactSlot, _, _, rfl⟩

/-- R90 to R93: what the picks of one moment leave as it was: power, the lines, the views, the array, the journal, the
skipped-entry counter, the row, the provisioning state, the values and the queue. The mode can only become DEGRADED. -/
theorem pickUpTo_frame (n : Nat) : ∃ h d cs ws fs b r e m,
    pickUpTo n s = { s with hpi := h, vols := d, claims := cs, waits := ws, fifos := fs, compactSlot := b, rr := r
                            engine := e, mode := m }
      ∧ (m = s.mode ∨ m = .degraded) ∧ ws.Sublist s.waits := by
  induction n generalizing s with
  | zero => exact ⟨s.hpi, s.vols, s.claims, s.waits, s.fifos, s.compactSlot, s.rr, s.engine, s.mode, rfl, .inl rfl, .refl _⟩
  | succ n ih =>
    unfold pickUpTo
    cases hp : s.takePick with
    | none =>
      exact ⟨s.hpi, s.vols, s.claims, s.waits, s.fifos, s.compactSlot, s.rr, s.engine, s.mode, rfl, .inl rfl, .refl _⟩
    | some q =>
      obtain ⟨op, t⟩ := q
      obtain ⟨fs, b, r, e, ht⟩ := s.takePick_frame op t hp
      obtain ⟨u, ⟨d, e2, m, hu, hm⟩, hs⟩ := startOp_frame t op
      subst ht
      rcases hs with hs | ⟨st, body, hs⟩ <;> simp only [hs]
      · exact ⟨s.hpi, d, s.claims, s.waits, fs, b, r, e2, m, hu, hm, .refl _⟩
      · obtain ⟨d2, ws, cs, h, hf, hw⟩ := u.finish_frame st body
        obtain ⟨h', d', cs', ws', fs', b', r', e', m', hpk, hm', hw'⟩ := ih (u.finish st body)
        refine ⟨h', d', cs', ws', fs', b', r', e', m', ?_, ?_, ?_⟩
        · rw [hpk, hf, hu]
        · rcases hm' with hm' | hm'
          · rw [hm', hf, hu]; exact hm
          · exact .inr hm'
        · rw [hf] at hw'
          rw [hu] at hw
          exact hw'.trans hw

/-- R90 to R93: the frame of a pick. -/
theorem State.pick_frame : ∃ h d cs ws fs b r e m,
    s.pick = { s with hpi := h, vols := d, claims := cs, waits := ws, fifos := fs, compactSlot := b, rr := r
                      engine := e, mode := m }
      ∧ (m = s.mode ∨ m = .degraded) ∧ ws.Sublist s.waits := by
  unfold State.pick
  split
  · exact ⟨s.hpi, s.vols, s.claims, s.waits, s.fifos, s.compactSlot, s.rr, s.engine, s.mode, rfl, .inl rfl, .refl _⟩
  · exact pickUpTo_frame s _

end Sys2Proof.Machine
end

