-- ==== Sys2Proof/Laws/Entries.lean ====
section
/-! SUPPORT. The completion of a journal entry of a directory-changing operation. -/

namespace Sys2Proof.Machine

variable (s : State)

/-- An entry under program is found by the kind of its operation. -/
theorem State.recordUnder_writes (k : Kind) (e : InFlight) (v : Vol) (en : JEntry) (j : Journal) (h : s.writes k e v en j) :
    s.recordUnder k = some (e, en, j) := by
  obtain ⟨he, hkk, hv, ⟨js, hp⟩, ho, hen, hj, hl⟩ := h
  have hfl : s.flightIs k = some e := by simp [State.flightIs, he, hkk]
  simp [State.recordUnder, hfl, hj, hp, hen, ho]

/-- R114 with the directory that the record makes. -/
theorem State.journalled_recorded (k : Kind) (e : InFlight) (v : Vol) (en : JEntry) (j : Journal) (d : Directory)
    (h : s.writes k e v en j) (hk : k ≠ .compact) (hd : applyRecord en.content s.vols = some d) :
    s.journalled en j = s.recorded en j d := by
  obtain ⟨he, hkk, hv, hp, ho, hen, hj, hl⟩ := h
  have idle : ({ s with
      store := s.store.program (positionBase j.sector j.append) (entryBytes en)
      journal := some { j with append := j.append + 1, seq := j.seq + 1 }
      vols := d } : State).compacting = false := by simp [State.compacting, he, hkk, hk]
  simp only [State.journalled, applied, hd, State.compactionCheck, State.scheduleCompaction, State.recorded,
    Option.getD_some, idle, Journal.free]
  split
  · rename_i hh; simp [hh]
  · rename_i hh; simp [hh]

/-- The completion of an entry in the words of the statements. -/
theorem entryCompletes_recorded (k : Kind) (e : InFlight) (v : Vol) (en : JEntry) (j : Journal) (d : Directory)
    (after : InFlight → State → State) (body : InFlight → State → List Byte) (h : s.writes k e v en j) (hk : k ≠ .compact)
    (hd : applyRecord en.content s.vols = some d) : entryCompletes k after body s =
      .next (((after e (s.recorded en j d)).finish .done (body e (s.recorded en j d))).pick) := by
  have hl := h.2.2.2.2.2.2.2
  simp [entryCompletes, s.recordUnder_writes k e v en j h, hl, s.journalled_recorded k e v en j d h hk hd, State.complete]

/-- A record of a volume in use changes that volume alone (R124). -/
theorem onVolume_volByte (d : Directory) (v : Vol) (x y : Volume) (g : Volume → Option Volume) (hx : d[v] = some x)
    (hy : g x = some y) : onVolume d (volByte v) g = some (d.set v (some y)) := by
  have hx' : d[v.val] = some x := hx
  simp [onVolume, hx', hy]

end Sys2Proof.Machine
end

