-- ==== Sys2Proof/Laws/Formats.lean ====
section
/-! SUPPORT. Reading back what the formats lay out: big-endian fields, request codes and volume indices. -/

namespace Sys2Proof.Machine

/-- The two bytes of a field make it again. -/
theorem be16_back (h : Half) : (h.extractLsb' 8 8 ++ h.extractLsb' 0 8 : BitVec 16) = h := by
  apply BitVec.eq_of_getLsbD_eq
  intro i hi
  simp only [BitVec.getLsbD_append, BitVec.getLsbD_extractLsb']
  split
  · simp_all
  · simp_all; omega

@[simp] theorem be16_length (h : Half) : (be16 h).length = 2 := rfl
@[simp] theorem be32_length (w : Word) : (be32 w).length = 4 := rfl
@[simp] theorem half_length (n : Nat) : (half n).length = 2 := rfl
@[simp] theorem word_length (n : Nat) : (word n).length = 4 := rfl

/-- A 2-byte field is read back at the offset it was laid at. -/
theorem halfAt_append (a : List Byte) (h : Half) (b : List Byte) : halfAt (a ++ be16 h ++ b) a.length = h := by
  simp only [halfAt, byteAt, be16, List.append_assoc, List.cons_append, List.nil_append]
  rw [List.getD_append_right _ _ _ _ (by omega), List.getD_append_right _ _ _ _ (by omega)]
  simpa using be16_back h

/-- A 4-byte field is read back at the offset it was laid at. -/
theorem wordAt_append (a : List Byte) (w : Word) (b : List Byte) : wordAt (a ++ be32 w ++ b) a.length = w := by
  have split4 : be32 w = be16 (w.extractLsb' 16 16) ++ be16 (w.extractLsb' 0 16) := by
    have low (i j : Nat) (h : i + 8 ≤ 16) : (w.extractLsb' j 16).extractLsb' i 8 = w.extractLsb' (j + i) 8 := by
      apply BitVec.eq_of_getLsbD_eq
      intro k hk
      simp only [BitVec.getLsbD_extractLsb']
      rw [decide_eq_true (by omega : i + k < 16), Nat.add_assoc]
      simp
    simp only [be32, be16, List.cons_append, List.nil_append]
    rw [low 8 16 (by decide), low 0 16 (by decide), low 8 0 (by decide), low 0 0 (by decide)]
  have front := halfAt_append a (w.extractLsb' 16 16) (be16 (w.extractLsb' 0 16) ++ b)
  have back := halfAt_append (a ++ be16 (w.extractLsb' 16 16)) (w.extractLsb' 0 16) b
  simp only [List.length_append, be16_length, List.append_assoc] at front back
  simp only [wordAt, split4, List.append_assoc, front, back]
  apply BitVec.eq_of_getLsbD_eq
  intro i hi
  simp only [BitVec.getLsbD_append, BitVec.getLsbD_extractLsb']
  split
  · simp_all
  · simp_all; omega

/-- Every request code of R179 names its kind. -/
theorem kindOfCode_kindCode (k : Kind) (h : k ∈ hostKinds) : kindOfCode (kindCode k) = some k := by
  revert h; cases k <;> decide

/-- A code names only the kind that has it. -/
theorem kindCode_of_kindOfCode (b : Byte) (k : Kind) (h : kindOfCode b = some k) : k ∈ hostKinds ∧ kindCode k = b := by
  unfold kindOfCode at h
  exact ⟨List.mem_of_find?_eq_some h, by simpa using List.find?_some h⟩

/-- An index above 31 names no volume. -/
theorem volIndex_none (b : Byte) (h : 31 < b.toNat) : volIndex b = none := by
  unfold volIndex
  rw [dif_neg (by omega)]

end Sys2Proof.Machine
end

