-- ==== Sys2Proof/Laws/Store.lean ====
section
/-! SUPPORT. The array: a stretch of bytes read at once is the bytes read one by one, and every array operation keeps the
canonical form (R1, R2). -/

namespace Sys2Proof.Machine

/-! ### Reading -/

/-- A listed byte is found among the listed bytes of a stretch that holds its address. -/
theorem cellAt_filter (cells : List Host.Cell) (g : Host.Cell → Bool) (a : Nat) (h : ∀ c ∈ cells, c.1 = a → g c = true) :
    cellAt (cells.filter g) a = cellAt cells a := by
  unfold cellAt
  congr 1
  induction cells with
  | nil => rfl
  | cons c rest ih =>
    have ih := ih (fun d hd => h d (List.mem_cons_of_mem _ hd))
    by_cases hc : c.1 = a
    · simp [List.filter, h c List.mem_cons_self hc, List.find?, hc]
    · have hc : (c.1 == a) = false := by simpa using hc
      cases hg : g c <;> simp [List.filter, hg, List.find?, hc, ih]

/-- The part of the store that bears on a stretch reads there as the whole does. -/
theorem Store.read_within (st : Store) (lo hi a : Nat) (h1 : lo ≤ a) (h2 : a < hi) :
    (st.within lo hi).read a = st.read a := by
  have hs : (st.spoiled.filter (fun x => x.meets lo hi)).find? (fun x => x.holds a)
      = st.spoiled.find? (fun x => x.holds a) := by
    induction st.spoiled with
    | nil => rfl
    | cons x rest ih =>
      cases hx : x.holds a
      · cases hm : x.meets lo hi <;> simp [List.filter, hm, List.find?, hx, ih]
      · have : x.meets lo hi = true := by
          simp only [Area.holds, Bool.and_eq_true, decide_eq_true_eq] at hx
          simp only [Area.meets, Bool.and_eq_true, decide_eq_true_eq]
          omega
        simp [List.filter, this, List.find?, hx]
  have hc : cellAt (st.cells.filter (fun c => lo ≤ c.1 && c.1 < hi)) a = cellAt st.cells a :=
    cellAt_filter _ _ _ (fun c _ e => by subst e; simp [h1, h2])
  simp only [Store.read, Store.within, hs, hc]

/-- Reading a stretch is reading its bytes one by one. -/
theorem Store.readBytes_eq (st : Store) (lo n : Nat) : st.readBytes lo n = (List.range n).map (fun i => st.read (lo + i)) := by
  apply List.map_congr_left
  intro i hi
  exact st.read_within _ _ _ (by omega) (by have := List.mem_range.mp hi; omega)

/-! ### The canonical form -/

/-- The check of rising addresses says that they rise. -/
theorem cellsRising_iff (cells : List Host.Cell) : cellsRising cells = true ↔ cells.Pairwise (fun c d => c.1 < d.1) := by
  induction cells with
  | nil => simp [cellsRising]
  | cons c rest ih =>
    cases rest with
    | nil => simp [cellsRising]
    | cons d rest =>
      simp only [cellsRising, Bool.and_eq_true, decide_eq_true_eq, ih, List.pairwise_cons, List.mem_cons, forall_eq_or_imp]
      constructor
      · rintro ⟨h, h1, h2⟩
        exact ⟨⟨h, fun e he => lt_trans h (h1 e he)⟩, h1, h2⟩
      · rintro ⟨⟨h, _⟩, h1, h2⟩
        exact ⟨h, h1, h2⟩

/-- The check of rising areas says that none is empty and that each ends before the next begins. -/
theorem areasRising_iff (xs : List Area) :
    areasRising xs = true ↔ (∀ x ∈ xs, x.lo < x.hi) ∧ xs.Pairwise (fun x y => x.hi ≤ y.lo) := by
  induction xs with
  | nil => simp [areasRising]
  | cons x rest ih =>
    cases rest with
    | nil => simp [areasRising]
    | cons y rest =>
      simp only [areasRising, Bool.and_eq_true, decide_eq_true_eq, ih, List.pairwise_cons, List.mem_cons, forall_eq_or_imp]
      constructor
      · rintro ⟨⟨h, h0⟩, ⟨h1, h2⟩, h3, h4⟩
        exact ⟨⟨h, h1, h2⟩, ⟨h0, fun z hz => le_trans h0 (le_trans (le_of_lt h1) (h3 z hz))⟩, h3, h4⟩
      · rintro ⟨⟨h, h1, h2⟩, ⟨h0, _⟩, h3, h4⟩
        exact ⟨⟨h, h0⟩, ⟨h1, h2⟩, h3, h4⟩

/-- The canonical form, said without checks. -/
theorem Store.wf_iff (st : Store) : st.wf = true ↔
    st.cells.Pairwise (fun c d => c.1 < d.1) ∧ (∀ x ∈ st.spoiled, x.lo < x.hi)
      ∧ st.spoiled.Pairwise (fun x y => x.hi ≤ y.lo)
      ∧ (∀ c ∈ st.cells, c.2 ≠ erasedByte ∧ c.1 < Config.arrayBytes ∧ ∀ x ∈ st.spoiled, ¬(x.lo ≤ c.1 ∧ c.1 < x.hi))
      ∧ ∀ x ∈ st.spoiled, x.hi ≤ Config.arrayBytes := by
  simp only [Store.wf, Bool.and_eq_true, cellsRising_iff, areasRising_iff, List.all_eq_true, decide_eq_true_eq, bne_iff_ne,
    ne_eq, Area.holds, Bool.not_eq_true', Bool.and_eq_false_iff, decide_eq_false_iff_not]
  constructor
  · rintro ⟨⟨⟨h1, h2, h3⟩, h4⟩, h5⟩
    exact ⟨h1, h2, h3, fun c hc => ⟨(h4 c hc).1.1, (h4 c hc).1.2, fun x hx => by have := (h4 c hc).2 x hx; tauto⟩, h5⟩
  · rintro ⟨h1, h2, h3, h4, h5⟩
    exact ⟨⟨⟨h1, h2, h3⟩, fun c hc => ⟨⟨(h4 c hc).1, (h4 c hc).2.1⟩, fun x hx => by have := (h4 c hc).2.2 x hx; tauto⟩⟩, h5⟩

/-- What remains of an area lies in it and outside the stretch taken from it. -/
theorem Area.mem_outside (x y : Area) (lo hi : Nat) (h : y ∈ x.outside lo hi) :
    x.lo ≤ y.lo ∧ y.hi ≤ x.hi ∧ (x.lo < x.hi → y.lo < y.hi) ∧ (lo < hi → x.lo < x.hi → y.hi ≤ lo ∨ hi ≤ y.lo) := by
  unfold Area.outside Area.meets at h
  split at h
  · rename_i hm
    simp only [Bool.and_eq_true, decide_eq_true_eq] at hm
    rcases List.mem_append.mp h with h | h
    · split at h
      · simp only [List.mem_singleton] at h; subst h; exact ⟨le_refl _, by simp only; omega, by simp only; omega, by simp only; omega⟩
      · simp at h
    · split at h
      · simp only [List.mem_singleton] at h; subst h; exact ⟨by simp only; omega, le_refl _, by simp only; omega, by simp only; omega⟩
      · simp at h
  · rename_i hm
    simp only [List.mem_singleton] at h
    subst h
    simp only [Bool.and_eq_true, decide_eq_true_eq, not_and, not_lt] at hm
    exact ⟨le_refl _, le_refl _, id, fun _ _ => by omega⟩

/-- The pieces of one area rise. -/
theorem Area.outside_rises (x : Area) (lo hi : Nat) (h : lo ≤ hi) : (x.outside lo hi).Pairwise (fun y z => y.hi ≤ z.lo) := by
  unfold Area.outside
  split
  · split <;> split <;> simp [h]
  · simp

/-- The areas outside a stretch rise as the areas do, and none is empty. -/
theorem areasOutside_rises (xs : List Area) (lo hi : Nat) (h : lo ≤ hi) (h1 : ∀ x ∈ xs, x.lo < x.hi)
    (h2 : xs.Pairwise (fun x y => x.hi ≤ y.lo)) :
    (∀ y ∈ areasOutside xs lo hi, y.lo < y.hi) ∧ (areasOutside xs lo hi).Pairwise (fun x y => x.hi ≤ y.lo) := by
  refine ⟨?_, ?_⟩
  · intro y hy
    obtain ⟨x, hx, hxy⟩ := List.mem_flatMap.mp hy
    exact (x.mem_outside y lo hi hxy).2.2.1 (h1 x hx)
  · induction xs with
    | nil => simp [areasOutside]
    | cons x rest ih =>
      have ih := ih (fun y hy => h1 y (List.mem_cons_of_mem _ hy)) (List.pairwise_cons.mp h2).2
      simp only [areasOutside, List.flatMap_cons, List.pairwise_append] at ih ⊢
      refine ⟨x.outside_rises lo hi h, ih, ?_⟩
      intro y hy z hz
      obtain ⟨w, hw, hwz⟩ := List.mem_flatMap.mp hz
      have := (List.pairwise_cons.mp h2).1 w hw
      have := (x.mem_outside y lo hi hy).2.1
      have := (w.mem_outside z lo hi hwz).1
      omega

/-- An area outside a stretch lies within an area there was. -/
theorem mem_areasOutside (xs : List Area) (lo hi : Nat) (y : Area) (h : y ∈ areasOutside xs lo hi) :
    ∃ x ∈ xs, x.lo ≤ y.lo ∧ y.hi ≤ x.hi := by
  obtain ⟨x, hx, hxy⟩ := List.mem_flatMap.mp h
  exact ⟨x, hx, (x.mem_outside y lo hi hxy).1, (x.mem_outside y lo hi hxy).2.1⟩

/-- No area outside a stretch holds an address of the stretch. -/
theorem areasOutside_misses (xs : List Area) (lo hi a : Nat) (h1 : ∀ x ∈ xs, x.lo < x.hi) (ha : lo ≤ a) (hb : a < hi) :
    ∀ y ∈ areasOutside xs lo hi, ¬(y.lo ≤ a ∧ a < y.hi) := by
  intro y hy
  obtain ⟨x, hx, hxy⟩ := List.mem_flatMap.mp hy
  have := (x.mem_outside y lo hi hxy).2.2.2 (by omega) (h1 x hx)
  omega

/-- The cells written by a program lie in its stretch, are not erased, and rise. -/
theorem cellsFrom_rises (bs : List Byte) : ∀ lo, (∀ c ∈ cellsFrom lo bs, lo ≤ c.1 ∧ c.1 < lo + bs.length ∧ c.2 ≠ erasedByte)
    ∧ (cellsFrom lo bs).Pairwise (fun c d => c.1 < d.1) := by
  induction bs with
  | nil => simp [cellsFrom]
  | cons b bs ih =>
    intro lo
    obtain ⟨i1, i2⟩ := ih (lo + 1)
    by_cases hb : b = erasedByte
    · simp only [cellsFrom, hb, if_true, List.length_cons]
      exact ⟨fun c hc => by have := i1 c hc; exact ⟨by omega, by omega, this.2.2⟩, i2⟩
    · simp only [cellsFrom, hb, if_false, List.length_cons, List.mem_cons, forall_eq_or_imp, List.pairwise_cons]
      exact ⟨⟨⟨by omega, by omega, hb⟩, fun c hc => by have := i1 c hc; exact ⟨by omega, by omega, this.2.2⟩⟩,
        fun c hc => by have := (i1 c hc).1; omega, i2⟩

/-- Cells before, in and after a stretch rise together. -/
theorem cells_around (cells mid : List Host.Cell) (lo hi : Nat) (h : lo ≤ hi) (h1 : cells.Pairwise (fun c d => c.1 < d.1))
    (h2 : mid.Pairwise (fun c d => c.1 < d.1)) (h3 : ∀ c ∈ mid, lo ≤ c.1 ∧ c.1 < hi) :
    (cells.filter (fun c => c.1 < lo) ++ mid ++ cells.filter (fun c => hi ≤ c.1)).Pairwise (fun c d => c.1 < d.1) := by
  simp only [List.pairwise_append, List.mem_append, List.mem_filter, decide_eq_true_eq]
  refine ⟨⟨h1.filter _, h2, fun c hc d hd => by have := h3 d hd; omega⟩, h1.filter _, ?_⟩
  rintro c (hc | hc) d hd
  · omega
  · have := h3 c hc; omega

/-- A program that stays in the array keeps the canonical form. -/
theorem Store.program_wf (st : Store) (lo : Nat) (bs : List Byte) (h : st.wf = true) (hb : lo + bs.length ≤ Config.arrayBytes) :
    (st.program lo bs).wf = true := by
  obtain ⟨h1, h2, h3, h4, h5⟩ := st.wf_iff.mp h
  obtain ⟨m1, m2⟩ := cellsFrom_rises bs lo
  obtain ⟨a1, a2⟩ := areasOutside_rises st.spoiled lo (lo + bs.length) (by omega) h2 h3
  refine (Store.wf_iff _).mpr ⟨?_, a1, a2, ?_, ?_⟩
  · exact cells_around _ _ _ _ (by omega) h1 m2 (fun c hc => ⟨(m1 c hc).1, (m1 c hc).2.1⟩)
  · intro c hc
    simp only [Store.program, List.mem_append, List.mem_filter, decide_eq_true_eq] at hc
    rcases hc with (⟨hc, _⟩ | hc) | ⟨hc, _⟩
    · refine ⟨(h4 c hc).1, (h4 c hc).2.1, fun y hy => ?_⟩
      obtain ⟨x, hx, _, _⟩ := mem_areasOutside _ _ _ _ hy
      have := (h4 c hc).2.2 x hx
      omega
    · have := m1 c hc
      exact ⟨this.2.2, by omega, areasOutside_misses _ _ _ _ h2 this.1 this.2.1⟩
    · refine ⟨(h4 c hc).1, (h4 c hc).2.1, fun y hy => ?_⟩
      obtain ⟨x, hx, _, _⟩ := mem_areasOutside _ _ _ _ hy
      have := (h4 c hc).2.2 x hx
      omega
  · intro y hy
    obtain ⟨x, hx, _, _⟩ := mem_areasOutside _ _ _ _ hy
    have := h5 x hx
    omega

/-- An erase keeps the canonical form. -/
theorem Store.eraseSector_wf (st : Store) (n : Nat) (h : st.wf = true) : (st.eraseSector n).wf = true := by
  obtain ⟨h1, h2, h3, h4, h5⟩ := st.wf_iff.mp h
  obtain ⟨a1, a2⟩ := areasOutside_rises st.spoiled (sectorBase n) (sectorBase n + Config.sectorBytes) (by omega) h2 h3
  refine (Store.wf_iff _).mpr ⟨?_, a1, a2, ?_, ?_⟩
  · have := cells_around st.cells [] (sectorBase n) (sectorBase n + Config.sectorBytes) (by omega) h1 List.Pairwise.nil (by simp)
    simpa [Store.eraseSector] using this
  · intro c hc
    simp only [Store.eraseSector, List.mem_append, List.mem_filter, decide_eq_true_eq] at hc
    have hc : c ∈ st.cells := by tauto
    refine ⟨(h4 c hc).1, (h4 c hc).2.1, fun y hy => ?_⟩
    obtain ⟨x, hx, _, _⟩ := mem_areasOutside _ _ _ _ hy
    have := (h4 c hc).2.2 x hx
    omega
  · intro y hy
    obtain ⟨x, hx, _, _⟩ := mem_areasOutside _ _ _ _ hy
    have := h5 x hx
    omega

/-- Spoiled content keeps the canonical form. -/
theorem Store.spoil_wf (st : Store) (lo n : Nat) (h : st.wf = true) : (st.spoil lo n).wf = true := by
  unfold Store.spoil
  simp only
  split
  · rename_i hb
    obtain ⟨h1, h2, h3, h4, h5⟩ := st.wf_iff.mp h
    obtain ⟨a1, a2⟩ := areasOutside_rises st.spoiled lo (lo + n) (by omega) h2 h3
    refine (Store.wf_iff _).mpr ⟨?_, ?_, ?_, ?_, ?_⟩
    · have := cells_around st.cells [] lo (lo + n) (by omega) h1 List.Pairwise.nil (by simp)
      simpa using this
    · simp only [List.mem_append, List.mem_filter, List.mem_singleton]
      rintro y ((⟨hy, _⟩ | rfl) | ⟨hy, _⟩)
      · exact a1 y hy
      · simp only; omega
      · exact a1 y hy
    · simp only [List.pairwise_append, List.mem_append, List.mem_filter, decide_eq_true_eq, List.mem_singleton,
        List.pairwise_singleton]
      refine ⟨⟨a2.filter _, trivial, ?_⟩, a2.filter _, ?_⟩
      · rintro x ⟨_, hx⟩ y rfl; exact hx
      · rintro x (⟨_, hx⟩ | rfl) y ⟨_, hy⟩
        · omega
        · exact hy
    · intro c hc
      simp only [List.mem_append, List.mem_filter, decide_eq_true_eq] at hc
      have hc' : c ∈ st.cells := by tauto
      refine ⟨(h4 c hc').1, (h4 c hc').2.1, ?_⟩
      simp only [List.mem_append, List.mem_filter, List.mem_singleton]
      have old : ∀ y ∈ areasOutside st.spoiled lo (lo + n), ¬(y.lo ≤ c.1 ∧ c.1 < y.hi) := by
        intro y hy
        obtain ⟨x, hx, _, _⟩ := mem_areasOutside _ _ _ _ hy
        have := (h4 c hc').2.2 x hx
        omega
      rintro y ((⟨hy, _⟩ | rfl) | ⟨hy, _⟩)
      · exact old y hy
      · simp only; omega
      · exact old y hy
    · simp only [List.mem_append, List.mem_filter, List.mem_singleton]
      have old : ∀ y ∈ areasOutside st.spoiled lo (lo + n), y.hi ≤ Config.arrayBytes := by
        intro y hy
        obtain ⟨x, hx, _, _⟩ := mem_areasOutside _ _ _ _ hy
        have := h5 x hx
        omega
      rintro y ((⟨hy, _⟩ | rfl) | ⟨hy, _⟩)
      · exact old y hy
      · exact hb.2
      · exact old y hy
  · exact h

/-- A power-on keeps the canonical form. -/
theorem Store.powerOn_wf (st : Store) (h : st.wf = true) : st.powerOn.wf = true := h

/-- The array of a factory part is canonical. -/
theorem State.reset_store_wf : State.reset.store.wf = true := rfl

/-- The bytes of a journal entry fill its position (R182). -/
theorem entryBytes_length (e : JEntry) : (entryBytes e).length = Config.positionBytes := by
  have hb : (recordBody e.content).length ≤ 22 := by
    cases e.content <;> simp [recordBody, be16, be32]
  simp only [entryBytes, entryFront, be32, List.length_append, List.length_cons, List.length_nil, List.length_replicate,
    Config.positionBytes]
  omega

/-- A journal position lies in the array (R112). -/
theorem positionBase_fits (j : JSector) (k : Nat) (h : k < Config.positions) :
    positionBase j k + Config.positionBytes ≤ Config.arrayBytes := by
  simp only [Config.positions] at h
  cases j <;> simp only [positionBase, sectorBase, jsectorNumber, Config.sectorBytes, Config.positionBytes, Config.arrayBytes] <;> omega

/-- An entry programmed at a journal position keeps the canonical form (R114). -/
theorem Store.entry_wf (st : Store) (j : JSector) (k : Nat) (e : JEntry) (h : st.wf = true) (hk : k < Config.positions) :
    (st.program (positionBase j k) (entryBytes e)).wf = true :=
  st.program_wf _ _ h (by rw [entryBytes_length]; exact positionBase_fits j k hk)

end Sys2Proof.Machine
end

