-- ==== Sys2Proof/Laws/Reads.lean ====
section
/-! SUPPORT. Views and reads: what opening or closing one view does to a count, which sectors a read touches, and the bytes
of an answer. -/

namespace Sys2Proof.Machine

variable (s : State)

/-- The sectors of a slot that `n` bytes from `o` on touch (R75). -/
theorem mem_sectorsTouched (o n k : Nat) (h : 1 ≤ n) :
    k ∈ sectorsTouched o n ↔ o / 65536 ≤ k ∧ k ≤ (o + n - 1) / 65536 := by
  simp only [sectorsTouched, List.mem_map, List.mem_range, Config.sectorBytes]
  constructor
  · rintro ⟨a, ha, rfl⟩; omega
  · intro ⟨h1, h2⟩; exact ⟨k - o / 65536, by omega, by omega⟩

/-- Taking a request leaves every staging map. -/
theorem mapEntry_taken (k : Kind) (f : Submit) (c : Option ClaimIx) (n : Nat) :
    mapEntry ((s.taken k f).mapOf c) n = mapEntry (s.mapOf c) n := by
  cases c with
  | none => rfl
  | some i =>
    rcases State.taken_claims s k f i with h | ⟨x, h1, h2⟩
    · simp only [State.mapOf, h]
    · simp only [State.mapOf, h1, h2]

/-- Without a HELD claim of the port on the named volume, taking a request changes the port alone (R51). -/
theorem State.taken_noClaim (k : Kind) (f : Submit) (v : Vol) (hv : f.volume = volByte v)
    (h : s.heldClaim f.port v = none) : s.taken k f = (s.framed f).setOutcome f.port .taken := by
  unfold State.taken State.reload
  split
  · rw [hv, volIndex_volByte]
    simp only
    have : ((s.framed f).setOutcome f.port .taken).heldClaim f.port v = none := by
      simpa [State.setOutcome, State.framed, State.closeFrame] using h
    rw [this]
  · rfl

/-- A count over all rows is the sum of the counts of the rows. -/
theorem countP_rows (rows : List (Vector (Option View) 4)) (g : View → Bool) :
    (rows.flatMap (fun row => row.toList.filterMap id)).countP g
      = (rows.map (fun row => (row.toList.filterMap id).countP g)).sum := by
  induction rows <;> simp_all [List.countP_append, List.flatMap_cons]

/-- What one entry adds to a count. -/
def viewWeight (g : View → Bool) (x : Option View) : Nat :=
  match x with
  | some w => if g w then 1 else 0
  | none => 0

/-- A count over a row after one entry is replaced. -/
theorem countP_row_set (row : Vector (Option View) 4) (h : Handle) (x : Option View) (g : View → Bool) :
    ((row.set h x).toList.filterMap id).countP g + viewWeight g row[h]
      = (row.toList.filterMap id).countP g + viewWeight g x := by
  have count : ∀ l : List (Option View), (l.filterMap id).countP g = (l.map (viewWeight g)).sum := by
    intro l
    induction l with
    | nil => rfl
    | cons a l ih =>
      rw [List.map_cons, List.sum_cons, ← ih]
      cases a with
      | none => rw [List.filterMap_cons_none rfl]; simp [viewWeight]
      | some w => rw [List.filterMap_cons_some (f := id) (b := w) rfl, List.countP_cons, Nat.add_comm]; rfl
  obtain ⟨⟨l⟩, hl⟩ := row
  match l, hl with
  | [a, b, c, d], _ =>
    simp only [count]
    match h with
    | 0 => simp; omega
    | 1 => simp; omega
    | 2 => simp; omega
    | 3 => simp; omega

/-- R22: a view count after one View Table entry is replaced. -/
theorem State.viewCount_setView (p : Port) (h : Handle) (x : Option View) (v : Vol) (sl : Slot) :
    (s.setView p h x).viewCount v sl + viewWeight (fun w => w.vol == v && w.slot == sl) s.views[p][h]
      = s.viewCount v sl + viewWeight (fun w => w.vol == v && w.slot == sl) x := by
  unfold State.viewCount State.openViews State.setView
  generalize s.views = vs
  obtain ⟨⟨l⟩, hl⟩ := vs
  match l, hl with
  | [a, b, c, d], _ =>
    simp only [countP_rows]
    match p with
    | 0 => have := countP_row_set a h x (fun w => w.vol == v && w.slot == sl); simp at this ⊢; omega
    | 1 => have := countP_row_set b h x (fun w => w.vol == v && w.slot == sl); simp at this ⊢; omega
    | 2 => have := countP_row_set c h x (fun w => w.vol == v && w.slot == sl); simp at this ⊢; omega
    | 3 => have := countP_row_set d h x (fun w => w.vol == v && w.slot == sl); simp at this ⊢; omega

/-- R27, R100: a resolved read changes the queue of its port and, by a suspension, the operation in flight. -/
theorem answerRead_frame (r : Request) (p : Port) (x : Resolved) :
    ∃ h e, answerRead r p x s = { s with hpi := h, engine := e } := by
  unfold answerRead
  split
  · exact ⟨_, s.engine, rfl⟩
  · exact ⟨_, _, rfl⟩
  · exact ⟨_, s.engine, rfl⟩

end Sys2Proof.Machine
end

