-- ==== Sys2Proof/Laws/Replay.lean ====
section
/-! SUPPORT. Replay of a blank array. -/

namespace Sys2Proof.Machine

/-- A position of an array with nothing listed is blank (R113). -/
theorem rawPosition_blank (st : Store) (hc : st.cells = []) (hs : st.spoiled = []) (j : JSector) (k : Nat) :
    rawPosition st j k = none := by
  have bytes : ∀ a, st.read a = erasedByte := by
    intro a
    simp [Store.read, hc, hs, cellAt]
  simp [rawPosition, hs, Store.readBytes_eq, bytes]

/-- Blank positions are judged blank. -/
theorem classify_blank (last : Option Word) (n : Nat) : classify last (List.replicate n none) = List.replicate n none := by
  induction n with
  | zero => rfl
  | succ n ih => simp [List.replicate_succ, classify, ih]

/-- Blank positions hold no valid entry. -/
theorem firstValid_blank (k n : Nat) : firstValid k (List.replicate n none) = none := by
  induction n generalizing k with
  | zero => rfl
  | succ n ih => simp [List.replicate_succ, firstValid, ih]

/-- A sequence of blank positions. -/
theorem range_map_none (n : Nat) (g : Nat → Option (Option JEntry)) (h : ∀ k, g k = none) :
    (List.range n).map g = List.replicate n none := by
  simp [funext h]

/-- A blank journal sector is not usable (R122). -/
theorem judged_blank (st : Store) (hc : st.cells = []) (hs : st.spoiled = []) (j : JSector) :
    usableEpoch (judged st j) = none := by
  have none_usable : ∀ n, usableEpoch (List.replicate n none) = none := fun n => by rw [usableEpoch, firstValid_blank]
  unfold judged
  generalize Config.positions = n
  dsimp only
  rw [range_map_none _ (rawPosition _ j) (fun k => rawPosition_blank _ (by simp [Store.within, hc]) (by simp [Store.within, hs]) j k),
    classify_blank, none_usable]

/-- A blank array gives replay no usable journal sector (R129). -/
theorem replay_blank (st : Store) (hc : st.cells = []) (hs : st.spoiled = []) : replay st = none := by
  unfold replay
  simp only [judged_blank st hc hs, chooseSector]

/-- Without a usable sector start-up ends in UNFORMATTED (R129). -/
theorem State.started_unformatted (s : State) (h : replay s.store = none) : s.started.mode = .unformatted := by
  unfold State.started
  simp only [h]

/-! ### A sector whose entries fill its first positions -/

/-- A position with no cell and no spoiled content in it is blank (R113). -/
theorem rawPosition_unlisted (st : Store) (j : JSector) (k : Nat) (hs : st.spoiled = [])
    (hc : ∀ c ∈ st.cells, ¬(positionBase j k ≤ c.1 ∧ c.1 < positionBase j k + 32)) : rawPosition st j k = none := by
  have bytes : ∀ i < 32, st.read (positionBase j k + i) = erasedByte := by
    intro i hi
    have out : st.cells.find? (fun c => c.1 == positionBase j k + i) = none := by
      rw [List.find?_eq_none]
      intro c hm he
      have := hc c hm
      simp only [beq_iff_eq] at he
      omega
    simp [Store.read, hs, cellAt, out]
  have all : (st.readBytes (positionBase j k) Config.positionBytes).all (· == erasedByte) = true := by
    rw [Store.readBytes_eq, List.all_eq_true]
    intro b hb
    obtain ⟨i, hi, rfl⟩ := List.mem_map.mp hb
    simpa using bytes i (by simpa [Config.positionBytes] using hi)
  unfold rawPosition
  simp [hs, all]

/-- The bytes of a position are those of the part of the store that bears on its sector. -/
theorem rawPosition_within (st : Store) (j : JSector) (k : Nat) (hs : st.spoiled = []) (hk : k < 2048) :
    rawPosition (st.within (positionBase j 0) (positionBase j Config.positions)) j k = rawPosition st j k := by
  have near : (st.within (positionBase j 0) (positionBase j Config.positions)).readBytes (positionBase j k) Config.positionBytes
      = st.readBytes (positionBase j k) Config.positionBytes := by
    rw [Store.readBytes_eq, Store.readBytes_eq]
    refine List.map_congr_left (fun i hi => Store.read_within _ _ _ _ ?_ ?_)
    · simp only [positionBase, Config.positionBytes]; omega
    · have : i < 32 := by simpa [Config.positionBytes] using hi
      simp only [positionBase, Config.positionBytes, Config.positions]; omega
  unfold rawPosition
  simp only [near]
  simp [Store.within, hs]

/-- Blank positions at the end are judged blank. -/
theorem classify_append_blank (last : Option Word) (ps : List (Option (Option JEntry))) (n : Nat) :
    classify last (ps ++ List.replicate n none) = classify last ps ++ List.replicate n none := by
  induction ps generalizing last with
  | nil => simp [classify, classify_blank]
  | cons p ps ih =>
    match p with
    | none => simp [classify, ih]
    | some none => simp [classify, ih]
    | some (some e) =>
      cases last with
      | none => simp [classify, ih]
      | some q => simp only [List.cons_append, classify]; split <;> simp [ih]

/-- The positions of a sector with nothing beyond the first `n`. -/
theorem judged_prefix (st : Store) (j : JSector) (n : Nat) (hn : n ≤ 2048) (hs : st.spoiled = [])
    (hc : ∀ c ∈ st.cells, ¬(positionBase j n ≤ c.1 ∧ c.1 < positionBase j 2048)) :
    judged st j = classify none ((List.range n).map (rawPosition st j)) ++ List.replicate (2048 - n) none := by
  have positions : (List.range 2048).map (rawPosition (st.within (positionBase j 0) (positionBase j Config.positions)) j)
      = (List.range n).map (rawPosition st j) ++ List.replicate (2048 - n) none := by
    rw [List.map_congr_left (fun k hk => rawPosition_within st j k hs (List.mem_range.mp hk))]
    conv_lhs => rw [← Nat.add_sub_of_le hn, List.range_add, List.map_append, List.map_map]
    congr 1
    rw [List.map_congr_left (g := fun _ => none), List.map_const', List.length_range]
    intro k hk
    have hk : k < 2048 - n := List.mem_range.mp hk
    refine rawPosition_unlisted st j (n + k) hs (fun c hm h => hc c hm ?_)
    simp only [positionBase, Config.positionBytes] at h ⊢
    omega
  unfold judged
  dsimp only
  rw [show Config.positions = 2048 from rfl] at positions ⊢
  rw [positions, classify_append_blank]

/-- Blank positions hold no entry. -/
theorem validEntries_append_blank (ps : List (Option (Option JEntry))) (n : Nat) :
    validEntries (ps ++ List.replicate n none) = validEntries ps := by
  have blank : ∀ m, validEntries (List.replicate m none) = [] := by
    intro m
    induction m with
    | zero => rfl
    | succ m ih => rw [List.replicate_succ]; exact (List.filterMap_cons_none rfl).trans ih
  have split : ∀ qs, validEntries (ps ++ qs) = validEntries ps ++ validEntries qs := fun qs => List.filterMap_append
  rw [split, blank, List.append_nil]

/-- Blank positions at the end do not move the first valid entry. -/
theorem firstValid_append_blank (ps : List (Option (Option JEntry))) (k n : Nat) :
    firstValid k (ps ++ List.replicate n none) = firstValid k ps := by
  induction ps generalizing k with
  | nil => simp [firstValid, firstValid_blank]
  | cons p ps ih =>
    match p with
    | none => simp [firstValid, ih]
    | some none => simp [firstValid, ih]
    | some (some e) => simp [firstValid]

/-- Blank positions at the end do not bear on usability (R122). -/
theorem usableEpoch_append_blank (ps : List (Option (Option JEntry))) (n : Nat) :
    usableEpoch (ps ++ List.replicate n none) = usableEpoch ps := by
  unfold usableEpoch
  rw [firstValid_append_blank, validEntries_append_blank]

/-- Blank positions at the end are passed over (R123). -/
theorem rebuild_append_blank (ps : List (Option (Option JEntry))) (n : Nat) :
    rebuild (ps ++ List.replicate n none) = rebuild ps := by
  have blank : ∀ (m : Nat) (r : Rebuild), (List.replicate m none).foldl rebuildStep r = r := by
    intro m
    induction m with
    | zero => intro r; rfl
    | succ m ih => intro r; rw [List.replicate_succ, List.foldl_cons, show rebuildStep r none = r from rfl, ih]
  unfold rebuild
  rw [List.foldl_append, blank]

/-- The append point lies after the last position that is not blank (R125). -/
theorem appendAfter_append_blank (ps : List (Option (Option JEntry))) (k n : Nat) :
    appendAfter k (ps ++ List.replicate n none) = appendAfter k ps := by
  have blank : ∀ m k, appendAfter k (List.replicate m none) = 0 := by
    intro m
    induction m with
    | zero => intro k; rfl
    | succ m ih => intro k; simp [List.replicate_succ, appendAfter, ih]
  induction ps generalizing k with
  | nil => simp [appendAfter, blank]
  | cons p ps ih => simp [appendAfter, ih]

/-- Replay of an array whose first positions of J0 alone hold something (R122 to R125). -/
theorem replay_prefix (st : Store) (n e : Nat) (hn : n ≤ 2048) (hs : st.spoiled = [])
    (hc : ∀ c ∈ st.cells, c.1 < 32 * n)
    (he : usableEpoch (classify none ((List.range n).map (rawPosition st .j0))) = some e) :
    let ps := classify none ((List.range n).map (rawPosition st .j0))
    replay st = some { journal := { sector := .j0, epoch := e, append := appendAfter 0 ps, seq := nextSeq ps }
                       skipped := (rebuild ps).skipped, dir := endReplay (rebuild ps).dir } := by
  have base0 : ∀ k, positionBase .j0 k = k * 32 := by
    intro k; simp [positionBase, sectorBase, jsectorNumber, Config.positionBytes]
  have base1 : ∀ k, positionBase .j1 k = 16777216 + k * 32 := by
    intro k; simp [positionBase, sectorBase, jsectorNumber, Config.positionBytes, Config.sectorBytes]
  have j0 := judged_prefix st .j0 n hn hs (fun c hm h => by
    have := hc c hm; rw [base0] at h; omega)
  have j1 := judged_prefix st .j1 0 (Nat.zero_le _) hs (fun c hm h => by
    have := hc c hm; rw [base1] at h; omega)
  have none1 : usableEpoch (judged st .j1) = none := by
    rw [j1, usableEpoch_append_blank]; rfl
  have some0 : usableEpoch (judged st .j0) = some e := by
    rw [j0, usableEpoch_append_blank, he]
  intro ps
  unfold replay
  simp only [some0, none1, chooseSector]
  rw [j0, rebuild_append_blank, appendAfter_append_blank, nextSeq, validEntries_append_blank]
  rfl

end Sys2Proof.Machine
end

