-- ==== Sys2Proof/WellFormed.lean ====
section
/-! DEFINITION. Which commands are well formed: the limits the manual's frame formats put on their operands. -/

namespace Sys2Proof

/-- A SUBMIT frame carries 0 to 262 parameter bytes, for its frame length is 5 to 267 (R179). -/
def Submit.wellFormed (f : Submit) : Bool := f.params.length ≤ 262

/-- A frame of unknown kind starts with none of the kind bytes 0x00, 0x01 and 0x02 (R178). A select period with no whole
byte is no frame at all (R156), and is admitted as the empty list. -/
def unknownBytes (bytes : List Byte) : Bool :=
  match bytes with
  | [] => true
  | k :: _ => 2 < k.toNat

/-- The check of a command. A command it refuses is still given a meaning: the bytes on the wire decide (log entry 19). -/
def Instr.wellFormed (c : Instr) : Bool :=
  match c with
  | .unknownFrame _ _ bytes => unknownBytes bytes
  | .queryDevice f | .queryVolume f | .createVolume f | .deleteVolume f | .setAccess f | .pin f | .unpin f
  | .format f | .provision f | .read f | .openView f | .closeView f | .claim f | .release f | .renew f
  | .beginStage f | .erase f | .program f | .readStaged f | .commit f | .rollback f => f.wellFormed
  | .statusFrame _ _ _ | .fetchFrame _ _ _ | .submitRejected _ _ _ => true
  | .eraseCompletion _ | .programCompletion _ | .commitVerifyEnd | .createEntryCompletes | .deleteEntryCompletes
  | .accessEntryCompletes | .pinEntryCompletes | .unpinEntryCompletes | .stageEntryCompletes
  | .commitEntryCompletes | .rollbackEntryCompletes | .journalWriteFault | .compactEraseEnd _
  | .snapshotEntryCompletes | .compactSnapEndCompletes | .formatEraseEnd _ | .formatHeaderCompletes
  | .formatSnapEndCompletes | .rowWriteEnd _ | .leaseUnitEnd _ | .leaseExpiry _ | .pinenAssertion
  | .pinenDeassertion | .pnrstAssert _ | .pnrstDeassert _ | .resetAssert _ | .resetDeassert | .powerOn
  | .powerLoss _ | .startUpEnd => true

end Sys2Proof
end

