-- ==== Sys2Proof/Tests/Slice0.lean ====
section
/-! SUPPORT. Tests of one step each, their expected results read from spec/, and for every statement a state and operands
that meet its hypotheses, clause by clause. -/

namespace Sys2Proof.Tests

open Sys2Proof.Machine

set_option Elab.async false

/-! ### Small states -/

/-- A volume with a committed image in slot A (R5). -/
def image : Volume :=
  { label := 0x1234, size := 2, baseA := 1, baseB := 257, readers := 0x7, writers := 0x3, pinned := false, genCounter := 1
    slotA := { state := .active, image := some { gen := 1, len := 300, crc := 0xCBF43926 } }
    slotB := { state := .empty, image := none }, deleting := false }

/-- The same volume with slot B under a staging session. -/
def staging : Volume := { image with slotB := { state := .staging, image := none } }

/-- The same volume after a second commit. -/
def twice : Volume :=
  { image with
    genCounter := 2
    slotA := { state := .previous, image := some { gen := 1, len := 300, crc := 0xCBF43926 } }
    slotB := { state := .active, image := some { gen := 2, len := 10, crc := 5 } } }

/-- A formatted part in NORMAL without volumes. -/
def ready : State := { State.reset with mode := .normal, journal := some { sector := .j0, epoch := 1, append := 2, seq := 3 } }

/-- The part with volume 5 in use. -/
def vol5 (x : Volume) : State := { ready with vols := ready.vols.set 5 (some x) }

/-- A HELD claim of P1 on volume 5 with a staging map of two sectors. -/
def held : Claim :=
  { vol := 5, holder := 1, state := .held, tag := 7, lease := 30, pending := 0
    map := some [{ state := .erased, ptr := 0 }, { state := .unknown, ptr := 0 }] }

/-- The part with a claim in entry 0. -/
def claimed (cl : Claim) (s : State) : State := { s with claims := s.claims.set 0 (some cl) }

/-- The part with an operation in flight. -/
def busy (e : InFlight) (s : State) : State := { s with engine := some e }

/-- A part in UNFORMATTED. -/
def unformatted : State := { State.reset with mode := .unformatted }

/-- A part in DEGRADED with volume 5. -/
def degraded : State := { vol5 image with mode := .degraded }

/-- A request of a port, whole and with no further bytes. -/
def ask (p : Port) (v : Byte) (ps : List Byte) : Submit :=
  { port := p, moment := .whole, tag := 9, volume := v, params := ps, extra := [] }

/-- An operation of P1 in flight on volume 5. -/
def doing (k : Kind) (ph : Phase) : InFlight :=
  { port := some 1, op := { tag := 3, kind := k, vol := some 5, params := [], data := [], claim := none }, phase := ph
    suspends := 0, eraseBudget := 16, programBudget := 4, discard := false, entry := none, tries := 0, own := none }

/-- The same bound to the claim in entry 0. -/
def bound (e : InFlight) (ps data : List Byte) : InFlight := { e with op := { e.op with claim := some 0, params := ps, data := data } }

/-- An operation with its record under program. -/
def writing (k : Kind) (r : JRecord) : InFlight :=
  { doing k (.journaling .j0) with entry := some { seq := 3, content := r } }

/-- An internal operation with an entry of its own sector under program. -/
def ownWriting (k : Kind) (r : JRecord) (todo : List SnapItem) : InFlight :=
  { doing k (.journaling .j0) with
    entry := some { seq := 1, content := r }, own := some { pos := 0, seq := 1, written := 0, epoch := 1, todo := todo } }

/-- Eight responses that a host has not fetched. -/
def eight : List Response := List.replicate 8 { tag := 0, kind := .read, status := .retry, body := [] }

/-- What a host clocks after the kind byte of a FETCH. -/
def clocked (n : Nat) (bits : Fin 8) : Clocked := { bytes := List.replicate n 0, bits := bits }

/-- One item of the next state. -/
def item {α : Type} (r : Res) (g : State → α) : Option α :=
  match r with
  | .next t => some (g t)
  | .fault _ => none
  | .refused _ => none

/-- Status and body of the newest response of a port. -/
def last (r : Res) (p : Port) : Option (Status × List Byte) :=
  (item r (fun t => t.hpi[p].queue.getLast?.map (fun x => (x.status, x.body)))).join

/-- The phase of the operation in flight. -/
def phase (r : Res) : Option Phase := (item r (fun t => t.engine.map InFlight.phase)).join

/-- The record under program. -/
def record (r : Res) : Option JRecord := (item r (fun t => (t.engine.bind InFlight.entry).map JEntry.content)).join

/-- One field of volume 5. -/
def of5 {α : Type} (r : Res) (g : Volume → α) : Option α := (item r (fun t => (t.vols[5]).map g)).join

/-- One field of the claim in entry 0. -/
def of0 {α : Type} (r : Res) (g : Claim → α) : Option α := (item r (fun t => (t.claims[0]).map g)).join

/-! ### Well-formed commands -/

theorem test_wf_unknown_kind : (Instr.unknownFrame 0 .whole [0x02]).wellFormed = false
    ∧ (Instr.unknownFrame 0 .whole [0x03]).wellFormed = true ∧ (Instr.unknownFrame 0 .whole []).wellFormed = true := by decide

theorem test_wf_params : Submit.wellFormed (ask 0 0 (List.replicate 263 0)) = false
    ∧ Submit.wellFormed (ask 0 0 (List.replicate 262 0)) = true := by decide +kernel

/-- The check holds for the frame of every kind of request. -/
theorem test_wf_requests : ∀ c ∈ [Instr.queryDevice, .queryVolume, .createVolume, .deleteVolume, .setAccess, .pin, .unpin, .format,
    .provision, .read, .openView, .closeView, .claim, .release, .renew, .beginStage, .erase, .program, .readStaged, .commit,
    .rollback], (c (ask 0 0 (List.replicate 263 0))).wellFormed = false := by decide +kernel

/-! ### Formats -/

/-- R177: the check values of both codes over the nine ASCII digits. -/
theorem test_check_codes : crc16 [0x31, 0x32, 0x33, 0x34, 0x35, 0x36, 0x37, 0x38, 0x39] = 0x29B1
    ∧ crc32 [0x31, 0x32, 0x33, 0x34, 0x35, 0x36, 0x37, 0x38, 0x39] = 0xCBF43926 := by decide +kernel

/-- R178: mode in bits 7 and 6, outcome in bits 5 and 4, held responses in bits 3 to 0. -/
theorem test_status_byte : packStatus .normal .taken 3 = 0x93 ∧ packStatus .starting .none 0 = 0x00
    ∧ packStatus .degraded .rejected 8 = 0xF8 := by decide

/-- R180: length, tag, request code, status and body of a response, most significant byte first. -/
theorem test_response_bytes : (responseBytes { tag := 9, kind := .claim, status := .claimed, body := [50] }).take 6
    = [0x00, 0x06, 0x09, 0x30, 0x04, 0x32] := by decide +kernel

/-- R182: the bytes of a COMMIT entry. -/
theorem test_commit_entry : (entryBytes { seq := 0x01020304, content := .commit 5 1 2 0x12C 0xCBF43926 }).take 20
    = [0x08, 0x01, 0x02, 0x03, 0x04, 0x05, 0x01, 0x00, 0x00, 0x00, 0x02, 0x00, 0x00, 0x01, 0x2C, 0xCB, 0xF4, 0x39, 0x26, 0x00] := by
  decide +kernel

/-! ### One step of each command -/

theorem test_status_frame : item (exec (.statusFrame 2 .whole [7]) ready) (fun t => t.hpi[2].sdo) = some [0x80, 0x00] := by decide

/-- R157, R159: the frame in progress after two bytes of a SUBMIT frame of 5 bytes, on a port that drives PnSDO. -/
theorem test_frame_in_progress : item (exec (.renew { ask 1 5 [] with moment := .received 2 })
    ((ready.setSelect 1 true).openFrame 1)) (fun t => (t.hpi[1].frame, t.drivesSdo 1))
      = some (some { status := 0x80, bytes := [0x01, 0x00], selected := none }, true) := by decide +kernel

/-- R174: under RESET a port ignores a frame and drives nothing. -/
theorem test_reset_drives_nothing : item (exec (.statusFrame 2 .select []) { ready with resetLine := true })
    (fun t => (t.hpi[2].frame, t.hpi[2].sel, t.drivesSdo 2)) = some (none, true, false) := by decide

/-- R169: the head leaves at the last bit of its CRC-16, and not one bit sooner. -/
theorem test_fetch_removes : ∀ x ∈ [clocked 7 7, clocked 8 0], item (exec (.fetchFrame 1 .whole x) (ready.push 1
    { tag := 9, kind := .claim, status := .claimed, body := [50] })) (fun t => t.hpi[1].queue.length)
      = some (if x.bits = 0 then 0 else 1) := by decide +kernel

theorem test_unknown_rejected : item (exec (.unknownFrame 3 .whole [0x80, 1]) ready) (fun t => t.hpi[3].outcome)
    = some .rejected := by decide

theorem test_truncated_rejected : item (exec (.submitRejected 0 .whole [0x00, 0x05, 0x01, 0x01, 0x00]) ready)
    (fun t => t.hpi[0].outcome) = some .rejected := by decide

/-- The first 21 bytes of the device report: NORMAL, BLANK, admin set P0 to P3, 50, 16, 4, J0, epoch 1, 2,046 free, idle. -/
theorem test_query_device : (last (exec (.queryDevice (ask 0 0xFF [])) ready) 0).map (fun x => (x.1, x.2.take 21))
    = some (.ok, [2, 0, 0x0F, 50, 16, 4, 1, 0, 0, 0, 1, 0x07, 0xFE, 0, 0, 0, 0xFF, 0, 0, 0, 0]) := by decide +kernel

theorem test_query_volume : (last (exec (.queryVolume (ask 3 5 [])) (claimed held (vol5 image))) 3).map (fun x => (x.1, x.2.take 11))
    = some (.ok, [5, 0x12, 0x34, 2, 0, 1, 1, 1, 0x07, 0x03, 0]) := by decide +kernel

/-- R14, R16: the lowest runs beside volume 5, which owns sectors 1, 2, 257 and 258. -/
theorem test_create_begins : record (exec (.createVolume (ask 0 6 [0xAB, 0xCD, 3, 0xF, 1])) (vol5 image))
    = some (.create 6 0xABCD 3 3 259 0xF 1) := by decide +kernel

theorem test_delete_begins : of5 (exec (.deleteVolume (ask 0 5 [])) (vol5 image)) Volume.deleting = some true := by decide +kernel

/-- R17: a claimed volume is not deleted. -/
theorem test_delete_in_use : last (exec (.deleteVolume (ask 0 5 [])) (claimed held (vol5 image))) 0 = some (.inUse, []) := by
  decide +kernel

theorem test_access_begins : record (exec (.setAccess (ask 0 5 [0xF, 2])) (vol5 image)) = some (.access 5 0xF 2) := by
  decide +kernel

/-- R15: a mask with a bit above P3. -/
theorem test_access_bad_mask : last (exec (.setAccess (ask 0 5 [0x10, 2])) (vol5 image)) 0 = some (.badRequest, []) := by
  decide +kernel

theorem test_pin_begins : record (exec (.pin (ask 0 5 [])) (vol5 image)) = some (.pin 5) := by decide +kernel

/-- R140: PINEN guards UNPIN. -/
theorem test_unpin_pinned : last (exec (.unpin (ask 0 5 [])) { vol5 { image with pinned := true } with pinen := true }) 0
    = some (.pinned, []) := by decide +kernel

theorem test_format_begins : phase (exec (.format (ask 0 0 [])) unformatted) = some (.erasing 0) := by decide +kernel

theorem test_provision_begins : phase (exec (.provision (ask 2 0 [0xF, 255, 16, 4])) ready) = some .rowWriting := by decide +kernel

/-- R150: the ranges end at 16 and 4. -/
theorem test_provision_range : last (exec (.provision (ask 2 0 [0xF, 255, 17, 4])) ready) 2 = some (.badRequest, []) := by
  decide +kernel

/-- R27: generation 1, slot A, 2 bytes of an erased array, at the very end of the image. -/
theorem test_read_data : last (exec (.read (ask 0 5 [0xFF, 0, 0, 0x01, 0x2A, 0, 2])) (vol5 image)) 0
    = some (.data, [0, 0, 0, 1, 0, 0, 2, 0xFF, 0xFF]) := by decide +kernel

/-- R100, R102: slot A against an ERASE in plane 0 whose suspend budget is spent. -/
theorem test_read_retry : last (exec (.read (ask 0 5 [0xFF, 0, 0, 0, 0, 0, 1]))
    (busy { doing .erase (.erasing 9) with suspends := 16 } (vol5 image))) 0 = some (.retry, []) := by decide +kernel

theorem test_open_view : last (exec (.openView (ask 2 5 [])) (vol5 image)) 2
    = some (.view, [0, 0, 0, 0, 0, 1, 0, 0, 0x01, 0x2C, 0xCB, 0xF4, 0x39, 0x26]) := by decide +kernel

theorem test_close_view : last (exec (.closeView (ask 2 0 [3])) (vol5 image)) 2 = some (.noView, []) := by decide +kernel

theorem test_claim : last (exec (.claim (ask 1 5 [0])) (vol5 image)) 1 = some (.claimed, [50]) := by decide +kernel

/-- R42: the holder and the state of the claim in the way. -/
theorem test_claim_held : last (exec (.claim (ask 0 5 [0])) (claimed held (vol5 image))) 0 = some (.claimHeld, [1, 1]) := by
  decide +kernel

/-- R48: RELEASED carries the tag of the CLAIM and that nothing was in flight. -/
theorem test_release : last (exec (.release (ask 1 5 [])) (claimed held (vol5 image))) 1 = some (.released, [7, 0]) := by
  decide +kernel

theorem test_renew : of0 (exec (.renew (ask 1 5 [])) (claimed held (vol5 image))) Claim.lease = some 50 := by decide +kernel

/-- R13: slot A is ACTIVE, so slot B is the target. -/
theorem test_stage_begins : record (exec (.beginStage (ask 1 5 [])) (claimed held (vol5 image))) = some (.stage 5 1) := by
  decide +kernel

/-- Sector 1 of slot B is sector 258 of the array. -/
theorem test_erase_begins : phase (exec (.erase (ask 1 5 [1])) (claimed held (vol5 staging))) = some (.erasing 258) := by
  decide +kernel

theorem test_program_begins : phase (exec (.program (ask 1 5 [0, 0, 0x01, 0x00, 0, 1, 0xAA])) (claimed held (vol5 staging)))
    = some (.programming 257 1) := by decide +kernel

/-- R72: sector 1 is UNKNOWN. -/
theorem test_program_not_erased : last (exec (.program (ask 1 5 [0, 1, 0, 0, 0, 1, 0xAA])) (claimed held (vol5 staging))) 1
    = some (.notErased, []) := by decide +kernel

theorem test_read_staged : last (exec (.readStaged (ask 1 5 [0, 0, 0, 0, 0, 1])) (claimed held (vol5 staging))) 1
    = some (.data, [0, 0, 0, 0, 1, 0, 1, 0xFF]) := by decide +kernel

theorem test_commit_verifies : phase (exec (.commit (ask 1 5 [0, 1, 0, 0, 0, 0, 0, 0])) (claimed held (vol5 staging)))
    = some .verifying := by decide +kernel

/-- R77: one byte more reaches sector 1, which is UNKNOWN. -/
theorem test_commit_incomplete : last (exec (.commit (ask 1 5 [0, 1, 0, 1, 0, 0, 0, 0])) (claimed held (vol5 staging))) 1
    = some (.incomplete, [1]) := by decide +kernel

theorem test_rollback_none : last (exec (.rollback (ask 1 5 [])) (claimed held (vol5 image))) 1 = some (.noPrevious, []) := by
  decide +kernel

theorem test_erase_ends : of0 (exec (.eraseCompletion true) (busy (bound (doing .erase (.erasing 258)) [1] [])
    (claimed held (vol5 staging)))) Claim.map
      = some (some [{ state := .erased, ptr := 0 }, { state := .erased, ptr := 0 }]) := by decide +kernel

theorem test_program_ends : last (exec (.programCompletion true) (busy (bound (doing .program (.programming 257 1))
    [0, 0, 1, 0, 0, 1, 0xAA] [0xAA]) (claimed held (vol5 staging)))) 1 = some (.done, [0, 0, 2]) := by decide +kernel

theorem test_programmed_byte : item (exec (.programCompletion true) (busy (bound (doing .program (.programming 257 1))
    [0, 0, 1, 0, 0, 1, 0xAA] [0xAA]) (claimed held (vol5 staging)))) (fun t => t.store.read (257 * 65536 + 256))
      = some 0xAA := by decide +kernel

/-- R79: one erased byte has the CRC-32 0xFF000000. -/
theorem test_verify_ends : record (exec .commitVerifyEnd (busy (bound (doing .commit .verifying) [0, 0, 0, 1, 0xFF, 0, 0, 0] [])
    (claimed held (vol5 staging)))) = some (.commit 5 1 2 1 0xFF000000) := by decide +kernel

theorem test_verify_fails : last (exec .commitVerifyEnd (busy (bound (doing .commit .verifying) [0, 0, 0, 1, 0, 0, 0, 0] [])
    (claimed held (vol5 staging)))) 1 = some (.checkFailed, [0xFF, 0, 0, 0]) := by decide +kernel

theorem test_create_ends : last (exec .createEntryCompletes (busy (writing .createVolume (.create 5 1 2 1 257 3 3)) ready)) 1
    = some (.done, [0, 1, 1, 1]) := by decide +kernel

/-- R18: a waiter of a deleted volume is told GONE. -/
theorem test_delete_ends : last (exec .deleteEntryCompletes { busy (writing .deleteVolume (.delete 5)) (vol5 image) with
    waits := [{ port := 2, vol := 5, tag := 4 }] }) 2 = some (.gone, []) := by decide +kernel

/-- R20: the holder is no writer any longer. -/
theorem test_access_ends : (item (exec .accessEntryCompletes (busy (writing .setAccess (.access 5 0xF 1)) (claimed held (vol5 image))))
    (fun t => t.hpi[1].queue.map Response.status)) = some [.revoked, .done] := by decide +kernel

theorem test_pin_ends : of5 (exec .pinEntryCompletes (busy (writing .pin (.pin 5)) (vol5 image))) Volume.pinned = some true := by
  decide +kernel

theorem test_unpin_ends : of5 (exec .unpinEntryCompletes (busy (writing .unpin (.unpin 5)) (vol5 { image with pinned := true })))
    Volume.pinned = some false := by decide +kernel

theorem test_stage_ends : of0 (exec .stageEntryCompletes (busy (bound (writing .beginStage (.stage 5 1)) [] [])
    (claimed held (vol5 image)))) (fun c => c.map.map List.length) = some (some 2) := by decide +kernel

/-- R10: slot B becomes ACTIVE and slot A PREVIOUS. -/
theorem test_commit_ends : of5 (exec .commitEntryCompletes (busy (bound (writing .commit (.commit 5 1 2 10 5)) [] [])
    (claimed held (vol5 staging)))) (fun x => (x.slotA.state, x.slotB.state, x.genCounter)) = some (.previous, .active, 2) := by
  decide +kernel

/-- R11: back to slot A, with the counter as it was. -/
theorem test_rollback_ends : of5 (exec .rollbackEntryCompletes (busy (bound (writing .rollback (.rollback 5)) [] [])
    (claimed held (vol5 twice)))) (fun x => (x.slotA.state, x.slotB.state, x.genCounter)) = some (.active, .stale, 2) := by
  decide +kernel

/-- R115: the third failed position loses the record. -/
theorem test_journal_fault : item (exec .journalWriteFault (busy { writing .pin (.pin 5) with tries := 2 } (vol5 image)))
    (fun t => (t.mode, t.skipped, t.journal.map Journal.append)) = some (.degraded, 1, some 3) := by decide +kernel

/-- R118: the HEADER of the next epoch, and 1 after the highest. -/
theorem test_compact_header : ∀ e ∈ [1, 4294967295], record (exec (.compactEraseEnd true) { busy
    { doing .compact (.erasing 256) with port := none } ready with journal := some { sector := .j0, epoch := e, append := 9, seq := 9 } })
      = some (.header (if e = 1 then 2 else 1)) := by decide +kernel

theorem test_snapshot_next : record (exec .snapshotEntryCompletes (busy (ownWriting .compact (.header 2) [.vol 5, .fin]) (vol5 image)))
    = some (.snapVol 5 0x1234 2 1 257 7 3 0 1) := by decide +kernel

theorem test_compact_ends : item (exec .compactSnapEndCompletes (busy (ownWriting .compact (.snapEnd 2) []) ready))
    (fun t => (t.engine, t.journal)) = some (none, some { sector := .j0, epoch := 1, append := 1, seq := 2 }) := by decide +kernel

theorem test_format_second_erase : phase (exec (.formatEraseEnd true) (busy (doing .format (.erasing 0)) unformatted))
    = some (.erasing 256) := by decide +kernel

theorem test_format_snap_end : record (exec .formatHeaderCompletes (busy (ownWriting .format (.header 1) [.fin]) unformatted))
    = some (.snapEnd 2) := by decide +kernel

theorem test_format_ends : item (exec .formatSnapEndCompletes (busy (ownWriting .format (.snapEnd 2) []) unformatted)) State.mode
    = some .normal := by decide +kernel

theorem test_row_ends : item (exec (.rowWriteEnd true) (busy { doing .provision .rowWriting with
    op := { tag := 3, kind := .provision, vol := none, params := [1, 9, 16, 4], data := [], claim := none } } ready))
      (fun t => (t.prov, t.values.lease)) = some (.frozen, 9) := by decide +kernel

theorem test_lease_unit : of0 (exec (.leaseUnitEnd 0) (claimed held (vol5 image))) Claim.lease = some 29 := by decide +kernel

/-- R53: the holder is told EXPIRED and the volume is free again. -/
theorem test_lease_expiry : last (exec (.leaseExpiry 0) (claimed { held with lease := 1 } (vol5 image))) 1 = some (.expired, []) := by
  decide +kernel

theorem test_pinen : last (exec .pinenAssertion (claimed held (vol5 { image with pinned := true }))) 1 = some (.revoked, []) := by
  decide +kernel

theorem test_pinen_off : item (exec .pinenDeassertion { ready with pinen := true }) State.pinen = some false := by decide

/-- R58, R171: a port reset ends the claim of the port without a notice. -/
theorem test_port_reset : item (exec (.pnrstAssert 1) (claimed held (vol5 image))) (fun t => (t.claims[0], t.hpi[1].queue))
    = some (none, []) := by decide +kernel

theorem test_port_serves : item (exec (.pnrstDeassert 1) (ready.setHpi 1 (Hpi.cleared true false))) (fun t => t.serves 1) = some true := by
  decide

theorem test_reset : item (exec (.resetAssert .during) (claimed held (vol5 image))) (fun t => (t.mode, t.claims[0], t.vols[5]))
    = some (.starting, none, none) := by decide +kernel

theorem test_reset_off : item (exec .resetDeassert { State.reset with resetLine := true }) State.resetLine = some false := by decide

theorem test_power_on : item (exec .powerOn { State.reset with powered := false }) State.powered = some true := by decide

/-- R2: an erase that a power loss cut short leaves its sector undefined. -/
theorem test_power_loss : item (exec (.powerLoss .during) (busy (doing .erase (.erasing 9)) ready))
    (fun t => (t.store.spoiled.map Area.lo, t.powered)) = some ([589824], false) := by decide +kernel

/-- R129: a blank array has no usable journal sector. -/
theorem test_start_up : item (exec .startUpEnd State.reset) State.mode = some .unformatted := by
  have blank : replay State.reset.deriveRow.emptyClaims.store = none := replay_blank State.reset.store rfl rfl
  have ended : exec .startUpEnd State.reset = .next State.reset.deriveRow.emptyClaims.started := by
    unfold exec execStartUpEnd
    exact if_pos (by decide)
  rw [ended]
  exact congrArg some (State.started_unformatted _ blank)

/-! ### Witnesses: states and operands that meet the hypotheses of each statement, clause by clause -/

/-- A volume no request has staged yet. -/
def fresh : Volume := { image with genCounter := 0, slotA := { state := .empty, image := none } }

/-- The same volume with its image in slot B. -/
def inB : Volume :=
  { image with
    slotA := { state := .empty, image := none }
    slotB := { state := .active, image := some { gen := 1, len := 300, crc := 0xCBF43926 } } }

/-- The claim of `held` with both sectors erased. -/
def ready2 : Claim := { held with map := some [{ state := .erased, ptr := 0 }, { state := .erased, ptr := 0 }] }

/-- An operation record of P1. -/
def pinOp : Op := (doing .pin .none).op

/-- A statement over the claim reference of a volume, checked entry by entry. -/
theorem byClaim (s : State) (v : Vol) (P : Claim → Prop)
    (h : ∀ c : ClaimIx, s.claimOf v = some c → ∀ cl ∈ s.claims[c], P cl) :
    ∀ (c : ClaimIx) cl, s.claimOf v = some c → s.claims[c] = some cl → P cl := fun c cl h1 h2 => h c h1 cl h2

/-- Frames on a port that serves, with and without a select period that is a frame, and on ports held by each of the three
causes. -/
theorem witness_MomentsMakeTheFrame :
    let other : State := ready.setHpi 3 { Hpi.cleared false true with frame := some { status := 0, bytes := [0x01], selected := none } }
    (Instr.statusFrame 3 .whole []).frameOf = some (3, .whole) ∧ ready.serves 3 = true ∧ ready.hpi[(3 : Port)].frame = none
      ∧ (other.serves 3 = true ∧ other.hpi[(3 : Port)].frame = some { status := 0, bytes := [0x01], selected := none }
        ∧ ¬([0x01] : List Byte) <+: wireOf (.statusFrame 3 .whole []))
      ∧ ({ ready with resetLine := true } : State).serves 3 = false ∧ ({ ready with powered := false } : State).serves 3 = false
      ∧ (ready.setHpi 3 (Hpi.cleared true false)).serves 3 = false := by decide

theorem witness_PlainFrames : ready.serves 0 = true ∧ 2 < (0x03 : Byte).toNat ∧ 2 < (0xFF : Byte).toNat
    ∧ (ready.setHpi 0 { Hpi.cleared false false with queue := eight }).serves 0 = true
    ∧ (ready.setHpi 0 { Hpi.cleared false false with queue := eight }).hpi[(0 : Port)].queue.length = 8 := by decide

theorem witness_FetchFrameReturnsTheHead :
    let r : Response := { tag := 9, kind := .claim, status := .claimed, body := [50] }
    (ready.push 1 r).serves 1 = true ∧ (ready.push 1 r).hpi[1].queue = r :: [] ∧ ready.hpi[1].queue = []
      ∧ (ready.push 1 r).attn 1 = true := by decide

/-- One frame for each of the seven causes, at the limits of the length. -/
theorem witness_BadSubmitFramesAreRejected : State.reset.serves 0 = true ∧ State.reset.mode = .starting ∧ ready.serves 0 = true
    ∧ ([0x00] : List Byte).length < 2 ∧ (halfAt [0x00, 0x04] 0).toNat < 5 ∧ 267 < (halfAt [0x01, 0x0C] 0).toNat
    ∧ ([0, 5, 9, 1, 0, 0] : List Byte).length < 2 + (halfAt [0, 5, 9, 1, 0, 0] 0).toNat
    ∧ (let b : List Byte := [0, 5, 9, 1, 0, 0, 0]
       halfAt b (halfAt b 0).toNat ≠ crc16 (0x01 :: b.take (halfAt b 0).toNat))
    ∧ (∀ k ∈ hostKinds, kindCode k ≠ byteAt [0, 5, 9, 0x7F, 0] 3) := by decide +kernel

theorem witness_FramesAndEntriesDecode : Kind.rollback ∈ hostKinds ∧ (List.replicate 262 (0 : Byte)).length ≤ 262 := by
  decide +kernel

/-- STARTING, a full response queue, and a full FIFO. -/
theorem witness_RequestsNotTaken :
    let f := ask 0 5 []
    let queue : State := { ready with hpi := ready.hpi.set 0 { Hpi.cleared false false with queue := eight } }
    let fifo : State := { ready with fifos := ready.fifos.set 0 (List.replicate 4 pinOp) }
    (Instr.pin f).requestOf = some (.pin, f) ∧ f.moment = .whole ∧ f.params.length ≤ 262
      ∧ (State.reset.serves 0 = true ∧ State.reset.mode = .starting)
      ∧ (queue.serves 0 = true ∧ queue.mode ≠ .starting ∧ queue.freeEntries 0 < need .pin 0 5 [] queue)
      ∧ (fifo.serves 0 = true ∧ fifo.mode ≠ .starting ∧ isEngineKind .pin = true ∧ fifo.fifos[(0 : Port)].length = 4) := by
  decide +kernel

/-- The needs of CLAIM and RELEASE: flags 0 and 1, a holder, a waiter, and a port that is neither. -/
theorem witness_RequestsNotTaken_needs :
    let s : State := { claimed held (vol5 image) with waits := [{ port := 2, vol := 5, tag := 4 }] }
    need .claim 0 5 [0] s = 2 ∧ need .claim 0 5 [1] s = 3 ∧ need .release 1 5 [] s = 0 ∧ need .release 2 5 [] s = 0
      ∧ need .release 0 5 [] s = 1 ∧ need .release 1 5 [0] s = 1 ∧ need .renew 1 5 [] s = 1
      ∧ (s.claims[(0 : ClaimIx)] = some held ∧ held.vol = 5 ∧ held.holder = 1 ∧ held.state = .held)
      ∧ (ask 1 5 []).volume = volByte 5 := by decide +kernel

theorem witness_ModeAndCountRefusals : (Instr.claim (ask 0 5 [0])).requestOf = some (.claim, ask 0 5 [0])
    ∧ (unformatted.takes .claim (ask 0 5 [0]) ∧ unformatted.mode = .unformatted
      ∧ Kind.claim ∉ [Kind.queryDevice, .provision, .format])
    ∧ (ready.takes .format (ask 0 0 []) ∧ ready.mode ≠ .unformatted)
    ∧ (degraded.takes .pin (ask 0 5 []) ∧ degraded.mode = .degraded)
    ∧ (ready.takes .program (ask 0 5 [0, 0, 0, 0, 0]) ∧ modeRefusal .program ready.mode = none)
    ∧ (ready.takes .claim (ask 0 5 [0, 0]) ∧ modeRefusal .claim ready.mode = none ∧ [0, 0].length ≠ paramSize .claim) := by
  decide +kernel

theorem witness_TakingReloadsTheLease :
    let s := claimed held (vol5 image)
    (Kind.renew ∉ [Kind.closeView, .queryDevice, .format, .provision, .compact] ∧ (ask 1 5 []).volume = volByte 5
      ∧ s.heldClaim 1 5 = some 0 ∧ s.claims[(0 : ClaimIx)] = some held)
    ∧ (Kind.closeView ∈ [Kind.closeView, .queryDevice, .format, .provision, .compact] ∧ 31 < (ask 1 32 []).volume.toNat
      ∧ (∃ v, (ask 0 5 []).volume = volByte v ∧ s.heldClaim 0 v = none)) := by decide +kernel

theorem witness_QueryDeviceReports : ready.takes .queryDevice (ask 0 0xFF []) ∧ (ask 0 0xFF []).params = []
    ∧ unformatted.takes .queryDevice (ask 3 0 []) ∧ unformatted.journal = none ∧ unformatted.engine = none
    ∧ ready.journal = some { sector := .j0, epoch := 1, append := 2, seq := 3 }
    ∧ (busy (doing .pin (.journaling .j0)) ready).takes .queryDevice (ask 0 0 [])
    ∧ (busy (doing .pin (.journaling .j0)) ready).engine = some (doing .pin (.journaling .j0)) := by decide +kernel

theorem witness_QueryVolumeReports :
    let s := claimed held (vol5 image)
    (s.takes .queryVolume (ask 0 32 []) ∧ s.mode = .normal ∧ 31 < (ask 0 32 []).volume.toNat)
    ∧ (s.takes .queryVolume (ask 0 31 []) ∧ (31 : Byte) = volByte 31 ∧ s.vols[(31 : Vol)] = none)
    ∧ (s.takes .queryVolume (ask 3 5 []) ∧ (5 : Byte) = volByte 5 ∧ s.vols[(5 : Vol)] = some image
      ∧ s.claimOf 5 = some 0 ∧ s.claims[(0 : ClaimIx)] = some held)
    ∧ (degraded.takes .queryVolume (ask 3 5 []) ∧ degraded.mode = .degraded ∧ degraded.vols[(5 : Vol)] = some image
      ∧ degraded.claimOf 5 = none) := by decide +kernel

theorem witness_AdminRequestsJoinTheFifo :
    let s := busy (doing .erase (.erasing 9)) (vol5 image)
    let u := busy { doing .format (.erasing 0) with op := { pinOp with kind := .format, vol := none } } unformatted
    s.engine.isSome = true ∧ s.mode = .normal ∧ (∀ p : Port, inMask s.values.admin p = true) ∧ (5 : Byte) = volByte 5
      ∧ (∀ ps ∈ ([[0, 0, 64, 15, 15], [0, 0, 1, 0, 0]] : List (List Byte)),
          s.takes .createVolume (ask 0 5 ps) ∧ adminParams .createVolume ps = true)
      ∧ (s.takes .setAccess (ask 0 5 [15, 0]) ∧ adminParams .setAccess [15, 0] = true)
      ∧ (s.takes .deleteVolume (ask 0 5 []) ∧ adminParams .deleteVolume [] = true)
      ∧ (s.takes .pin (ask 0 5 []) ∧ adminParams .pin [] = true) ∧ (s.takes .unpin (ask 0 5 []) ∧ adminParams .unpin [] = true)
      ∧ (u.engine.isSome = true ∧ u.mode = .unformatted ∧ u.takes .format (ask 0 0 []) ∧ inMask u.values.admin 0 = true)
      ∧ (∀ ps ∈ ([[1, 1, 0, 0], [15, 255, 16, 4]] : List (List Byte)),
          u.takes .provision (ask 0 0 ps) ∧ provisionParams ps = true ∧ u.prov = .blank)
      ∧ (s.takes .provision (ask 0 0 [1, 1, 0, 0]) ∧ s.prov = .blank) := by
  dsimp only
  and_intros <;> decide +kernel

theorem witness_StagingRequestsJoinTheFifo :
    let s := busy (doing .erase (.erasing 9)) (claimed held (vol5 staging))
    s.engine.isSome = true ∧ s.mode = .normal ∧ (5 : Byte) = volByte 5 ∧ s.heldClaim 1 5 = some 0
      ∧ (Instr.erase (ask 1 5 [63])).requestOf = some (.erase, ask 1 5 [63])
      ∧ (s.takes .beginStage (ask 1 5 []) ∧ stagingParams .beginStage [] = true)
      ∧ (s.takes .erase (ask 1 5 [63]) ∧ stagingParams .erase [63] = true)
      ∧ (∀ n ∈ [1, 256], let ps := [0, 0, 1, 0] ++ half n ++ List.replicate n 0
          s.takes .program (ask 1 5 ps) ∧ stagingParams .program ps = true)
      ∧ (s.takes .commit (ask 1 5 [0, 0, 0, 0, 0, 0, 0, 0]) ∧ stagingParams .commit [0, 0, 0, 0, 0, 0, 0, 0] = true)
      ∧ (s.takes .rollback (ask 1 5 []) ∧ stagingParams .rollback [] = true) := by decide +kernel

/-- One request for each of the seven refusals. -/
theorem witness_EngineRequestsRefusedAtTaking :
    let s := claimed held (vol5 staging)
    let noAdmin : State := { s with values := { s.values with admin := 0xE } }
    let frozen : State := { s with prov := .frozen }
    s.mode = .normal ∧ (∀ k ∈ hostKinds, k ≠ .format → modeRefusal k .normal = none)
      ∧ (noAdmin.takes .pin (ask 0 5 []) ∧ inMask noAdmin.values.admin 0 = false)
      ∧ (unformatted.takes .format (ask 0 0 []) ∧ modeRefusal .format unformatted.mode = none)
      ∧ (s.takes .pin (ask 0 32 []) ∧ inMask s.values.admin 0 = true ∧ 31 < (ask 0 32 []).volume.toNat)
      ∧ (s.takes .createVolume (ask 0 5 [0, 0, 65, 0, 0]) ∧ adminParams .createVolume [0, 0, 65, 0, 0] = false)
      ∧ (s.takes .provision (ask 0 0 [0, 1, 0, 0]) ∧ provisionParams [0, 1, 0, 0] = false)
      ∧ (frozen.takes .provision (ask 0 0 [1, 1, 0, 0]) ∧ provisionParams [1, 1, 0, 0] = true ∧ frozen.prov ≠ .blank)
      ∧ (s.takes .erase (ask 1 5 [64]) ∧ stagingParams .erase [64] = false)
      ∧ (s.takes .erase (ask 0 5 [63]) ∧ stagingParams .erase [63] = true ∧ s.heldClaim 0 5 = none) := by
  dsimp only
  and_intros <;> decide +kernel

/-- An idle part on which a request for volume 5 starts. -/
abbrev Starts (s : State) (k : Kind) (f : Submit) : Prop :=
  s.takes k f ∧ s.mode = .normal ∧ f.volume = volByte 5 ∧ s.engine = none ∧ s.work = 0

theorem witness_AdminRequestsStart :
    let s := vol5 image
    ready.journal = some { sector := .j0, epoch := 1, append := 2, seq := 3 } ∧ inMask ready.values.admin 0 = true
      ∧ (Starts ready .createVolume (ask 0 5 [0, 0, 64, 15, 0]) ∧ ready.vols[(5 : Vol)] = none ∧ place ready.vols 64 = some (1, 257))
      ∧ s.vols[(5 : Vol)] = some image ∧ (image.pinned && s.pinen) = false
      ∧ (Starts s .deleteVolume (ask 0 5 []) ∧ s.claimOf 5 = none ∧ s.viewCount 5 .a = 0 ∧ s.viewCount 5 .b = 0)
      ∧ Starts s .setAccess (ask 0 5 [15, 0]) ∧ Starts s .pin (ask 0 5 []) ∧ Starts s .unpin (ask 0 5 [])
      ∧ (∀ n ∈ [2047, 2048], let u : State := { s with journal := some { sector := .j0, epoch := 1, append := n, seq := 3 } }
          Starts u .pin (ask 0 5 [])) := by
  dsimp only
  and_intros <;> decide +kernel

theorem witness_StagingRequestsStart :
    let s (x : Volume) : State := claimed ready2 (vol5 x)
    (∀ x ∈ [image, inB, fresh, twice, staging], Starts (s x) .beginStage (ask 1 5 []) ∧ (s x).heldClaim 1 5 = some 0
        ∧ (s x).vols[(5 : Vol)] = some x)
      ∧ (image.slotIn .staging = none ∧ image.slotIn .active = some .a ∧ (s image).viewCount 5 .b = 0)
      ∧ (inB.slotIn .staging = none ∧ inB.slotIn .active = some .b ∧ (s inB).viewCount 5 .a = 0)
      ∧ (fresh.slotIn .staging = none ∧ fresh.slotIn .active = none)
      ∧ (Starts (s twice) .rollback (ask 1 5 []) ∧ twice.slotIn .staging = none ∧ (twice.slotIn .previous).isSome = true)
      ∧ (Starts { s twice with journal := some { sector := .j0, epoch := 1, append := 2048, seq := 3 } } .rollback (ask 1 5 []))
      ∧ staging.slotIn .staging = some .b
      ∧ (Starts (s staging) .erase (ask 1 5 [1]) ∧ stagingParams .erase [1] = true ∧ (1 : Byte).toNat < staging.size)
      ∧ (let ps : List Byte := [0, 1, 0xFF, 0, 1, 0] ++ List.replicate 256 0
         let m := mapEntry ((s staging).mapOf (some 0)) ((wordAt ps 0).toNat / 65536)
         Starts (s staging) .program (ask 1 5 ps) ∧ stagingParams .program ps = true
          ∧ (wordAt ps 0).toNat + (halfAt ps 4).toNat = staging.size * 65536 ∧ m.state ≠ .unknown
          ∧ m.ptr ≤ (wordAt ps 0).toNat % 65536 / 256)
      ∧ (∀ ps ∈ ([[0, 0, 0, 1, 0, 0, 0, 0], [0, 2, 0, 0, 0, 0, 0, 0]] : List (List Byte)),
          Starts (s staging) .commit (ask 1 5 ps) ∧ 1 ≤ (wordAt ps 0).toNat ∧ (wordAt ps 0).toNat ≤ staging.size * 65536
            ∧ staging.genCounter ≠ 4294967295
            ∧ ∀ n ≤ ((wordAt ps 0).toNat - 1) / 65536, (mapEntry ((s staging).mapOf (some 0)) n).state ≠ .unknown) := by
  dsimp only
  and_intros <;> decide +kernel

theorem witness_FormatAndProvisionStart :
    (unformatted.takes .format (ask 0 0 []) ∧ unformatted.engine = none ∧ unformatted.work = 0 ∧ unformatted.mode = .unformatted
      ∧ inMask unformatted.values.admin 0 = true)
    ∧ (ready.takes .provision (ask 0 0 [15, 255, 16, 4]) ∧ ready.engine = none ∧ ready.work = 0 ∧ ready.mode = .normal
      ∧ provisionParams [15, 255, 16, 4] = true ∧ ready.prov = .blank)
    ∧ (unformatted.takes .provision (ask 0 0 [1, 1, 0, 0]) ∧ provisionParams [1, 1, 0, 0] = true ∧ unformatted.prov = .blank) := by
  decide +kernel

/-- One request for each start check of an administrative request. -/
theorem witness_StartChecksRefuse_admin :
    let s := vol5 image
    let pinned : State := { vol5 { image with pinned := true } with pinen := true }
    let full : State := { ready with vols := ((ready.vols.set 0 (some { image with baseA := 100, size := 64 })).set
      1 (some { image with baseA := 1, size := 64 })).set 2 (some { image with baseA := 180, size := 64 }) }
    inMask s.values.admin 0 = true
      ∧ (Starts s .createVolume (ask 0 5 [0, 0, 1, 0, 0]) ∧ (s.vols[(5 : Vol)]).isSome = true)
      ∧ (Starts full .createVolume (ask 0 5 [0, 0, 64, 0, 0]) ∧ full.vols[(5 : Vol)] = none ∧ place full.vols 64 = none)
      ∧ (Starts ready .pin (ask 0 5 []) ∧ ready.vols[(5 : Vol)] = none)
      ∧ (Starts pinned .unpin (ask 0 5 []) ∧ pinned.vols[(5 : Vol)] = some { image with pinned := true } ∧ pinned.pinen = true)
      ∧ (Starts (claimed held s) .deleteVolume (ask 0 5 []) ∧ (claimed held s).claimOf 5 ≠ none) := by
  dsimp only
  and_intros <;> decide +kernel

/-- One request for each start check of a staging request, with the sectors and lengths at their limits. -/
theorem witness_StartChecksRefuse_staging :
    let s (x : Volume) : State := claimed held (vol5 x)
    let viewed : State := (s image).setView 0 0 (some { vol := 5, slot := .b, gen := 1, len := 1 })
    let page1 : State := claimed { held with map := some [{ state := .programmed, ptr := 2 }] } (vol5 staging)
    let last : Volume := { staging with genCounter := 4294967295 }
    (∀ x ∈ [image, staging, last], (s x).heldClaim 1 5 = some 0 ∧ (s x).vols[(5 : Vol)] = some x)
      ∧ (Starts (s staging) .beginStage (ask 1 5 []) ∧ (staging.slotIn .staging).isSome = true)
      ∧ (Starts viewed .beginStage (ask 1 5 []) ∧ image.slotIn .staging = none ∧ 0 < viewed.viewCount 5 image.target)
      ∧ (Starts (s image) .rollback (ask 1 5 []) ∧ image.slotIn .previous = none)
      ∧ (Starts (s image) .erase (ask 1 5 [0]) ∧ stagingParams .erase [0] = true)
      ∧ (Starts (s staging) .erase (ask 1 5 [2]) ∧ staging.size ≤ (2 : Byte).toNat)
      ∧ (Starts (s staging) .program (ask 1 5 [0, 2, 0, 0, 0, 1, 0]) ∧ staging.size * 65536 < 131073)
      ∧ (Starts (s staging) .program (ask 1 5 [0, 1, 0, 0, 0, 1, 0]) ∧ (mapEntry ((s staging).mapOf (some 0)) 1).state = .unknown)
      ∧ (Starts page1 .program (ask 1 5 [0, 0, 1, 0, 0, 1, 0]) ∧ (mapEntry (page1.mapOf (some 0)) 0).state ≠ .unknown
        ∧ 256 % 65536 / 256 < (mapEntry (page1.mapOf (some 0)) 0).ptr)
      ∧ (Starts (s staging) .commit (ask 1 5 [0, 2, 0, 1, 0, 0, 0, 0]) ∧ staging.size * 65536 < 131073)
      ∧ Starts (s last) .commit (ask 1 5 [0, 2, 0, 0, 0, 0, 0, 0])
      ∧ (Starts (s staging) .commit (ask 1 5 [0, 2, 0, 0, 0, 0, 0, 0])
        ∧ (mapEntry ((s staging).mapOf (some 0)) 1).state = .unknown
        ∧ ∀ l < 1, (mapEntry ((s staging).mapOf (some 0)) l).state ≠ .unknown) := by
  dsimp only
  and_intros <;> decide +kernel

theorem witness_PlacementTakesTheLowestRuns : place ready.vols 1 = some (1, 257) ∧ place ready.vols 64 = some (1, 257)
    ∧ place (vol5 image).vols 64 = some (3, 259) := by decide +kernel

theorem witness_PlaneTableAnswersReads :
    ready.engine = none
      ∧ (∀ ph ∈ [Phase.none, .verifying, .rowWriting, .erasing 255, .erasing 256, .programming 255 0, .programming 256 255,
          .journaling .j0, .journaling .j1], (busy (doing .erase ph) ready).engine = some (doing .erase ph))
      ∧ (∀ n ∈ [15, 16], (busy { doing .erase (.erasing 255) with suspends := n } ready).engine
          = some { doing .erase (.erasing 255) with suspends := n }) := by decide +kernel

theorem witness_ReadFromCurrent :
    let s := vol5 image
    let out : Volume := { image with baseA := 512 }
    s.mode = .normal ∧ degraded.mode = .degraded
      ∧ (s.takes .read (ask 0 32 [0xFF, 0, 0, 0, 0, 0, 1]) ∧ s.takes .read (ask 0 5 [4, 0, 0, 0, 0, 0, 1])
        ∧ s.takes .read (ask 0 5 [0xFF, 0, 0, 0, 0, 0, 0]) ∧ s.takes .read (ask 0 5 [0xFF, 0, 0, 0, 0, 1, 1])
        ∧ 256 < (halfAt [0xFF, 0, 0, 0, 0, 1, 1] 5).toNat)
      ∧ (s.takes .read (ask 0 31 [0xFF, 0, 0, 0, 0, 1, 0]) ∧ s.vols[(31 : Vol)] = none ∧ (halfAt [0xFF, 0, 0, 0, 0, 1, 0] 5).toNat = 256)
      ∧ (s.takes .read (ask 3 5 [0xFF, 0, 0, 0, 0, 0, 1]) ∧ inMask image.readers 3 = false)
      ∧ ((vol5 fresh).takes .read (ask 0 5 [0xFF, 0, 0, 0, 0, 0, 1]) ∧ inMask fresh.readers 0 = true ∧ fresh.slotIn .active = none)
      ∧ (degraded.takes .read (ask 0 5 [0xFF, 0, 0, 1, 0x2B, 0, 2]) ∧ image.slotIn .active = some .a
        ∧ (image.slot .a).len < 299 + 2 ∧ 298 + 2 ≤ (image.slot .a).len ∧ image.base .a * 65536 + 298 + 2 ≤ 33554432)
      ∧ ((vol5 out).takes .read (ask 0 5 [0xFF, 0, 0, 0, 0, 0, 1]) ∧ out.slotIn .active = some .a
        ∧ 33554432 < out.base .a * 65536 + 0 + 1) := by
  dsimp only
  and_intros <;> decide +kernel

theorem witness_ReadThroughView :
    let w : View := { vol := 5, slot := .a, gen := 1, len := 300 }
    let s := (vol5 image).setView 3 3 (some w)
    let ps : List Byte := [3, 0, 0, 0x01, 0x2B, 0, 1]
    s.mode = .normal ∧ s.takes .read (ask 3 5 ps) ∧ byteAt ps 0 = byteOf (3 : Handle).val ∧ (wordAt ps 1).toNat = 299
      ∧ (halfAt ps 5).toNat = 1 ∧ s.views[(3 : Port)][(2 : Handle)] = none ∧ s.views[(3 : Port)][(3 : Handle)] = some w
      ∧ (s.takes .read (ask 3 6 ps) ∧ w.vol ≠ 6) ∧ (w.vol = 5 ∧ w.len < 299 + 2) ∧ 299 + 1 ≤ w.len
      ∧ s.vols[(5 : Vol)] = some image ∧ image.base w.slot * 65536 + 299 + 1 ≤ 33554432
      ∧ (let x : Volume := { image with baseA := 512 }
         ((vol5 x).setView 3 3 (some w)).takes .read (ask 3 5 ps) ∧ 33554432 < x.base w.slot * 65536 + 299 + 1) := by decide +kernel

theorem witness_ReadStagedAnswers :
    let s := claimed held (vol5 staging)
    s.mode = .normal ∧ s.heldClaim 1 5 = some 0 ∧ s.heldClaim 0 5 = none ∧ s.vols[(5 : Vol)] = some staging
      ∧ staging.slotIn .staging = some .b ∧ image.slotIn .staging = none
      ∧ (s.takes .readStaged (ask 1 32 [0, 0, 0, 0, 0, 1]) ∧ s.takes .readStaged (ask 1 5 [0, 0, 0, 0, 0, 0])
        ∧ s.takes .readStaged (ask 1 5 [0, 0, 0, 0, 1, 1]) ∧ 256 < (halfAt [0, 0, 0, 0, 1, 1] 4).toNat)
      ∧ s.takes .readStaged (ask 0 5 [0, 0, 0, 0, 1, 0])
      ∧ ((claimed held (vol5 image)).takes .readStaged (ask 1 5 [0, 0, 0, 0, 0, 1]) ∧ (claimed held (vol5 image)).heldClaim 1 5 = some 0)
      ∧ (s.takes .readStaged (ask 1 5 [0, 1, 0xFF, 0xFF, 0, 2]) ∧ staging.size * 65536 < 131071 + 2)
      ∧ (s.takes .readStaged (ask 1 5 [0, 0, 0xFF, 0xFF, 0, 2]) ∧ 65535 / 65536 ≤ 1 ∧ 1 ≤ (65535 + 2 - 1) / 65536
        ∧ (mapEntry (s.mapOf (some 0)) 1).state = .unknown)
      ∧ (s.takes .readStaged (ask 1 5 [0, 0, 0xFF, 0xFF, 0, 1])
        ∧ (∀ k ≤ (65535 + 1 - 1) / 65536, (mapEntry (s.mapOf (some 0)) k).state ≠ .unknown)
        ∧ staging.base .b * 65536 + 65535 + 1 ≤ 33554432)
      ∧ (let e := bound (doing .program (.programming 257 4)) [] []
         (busy e s).takes .readStaged (ask 1 5 [0, 0, 0xFF, 0xFF, 0, 1]) ∧ e.op.vol = some 5
          ∧ e.phase = .programming (staging.base .b + 0) 4)
      ∧ (let x : Volume := { staging with baseB := 512 }
         (claimed held (vol5 x)).takes .readStaged (ask 1 5 [0, 0, 0, 0, 0, 1]) ∧ 33554432 < x.base .b * 65536 + 0 + 1) := by
  dsimp only
  and_intros <;> decide +kernel

theorem witness_ViewsOpenAndClose :
    let s := vol5 image
    let w : View := { vol := 5, slot := .a, gen := 1, len := 300 }
    let full : State := { s with views := s.views.set 2 (Vector.replicate 4 (some w)) }
    let three : State := full.setView 2 3 none
    (s.mode = .normal ∧ s.takes .openView (ask 2 32 []))
      ∧ (s.takes .openView (ask 2 31 []) ∧ s.vols[(31 : Vol)] = none)
      ∧ ((vol5 { image with deleting := true }).takes .openView (ask 2 5 []) ∧ ({ image with deleting := true } : Volume).deleting = true)
      ∧ (s.takes .openView (ask 3 5 []) ∧ image.deleting = false ∧ inMask image.readers 3 = false)
      ∧ ((vol5 fresh).takes .openView (ask 2 5 []) ∧ inMask fresh.readers 2 = true ∧ fresh.slotIn .active = none)
      ∧ (full.takes .openView (ask 2 5 []) ∧ ∀ h : Handle, (full.views[(2 : Port)][h]).isSome = true)
      ∧ (three.takes .openView (ask 2 5 []) ∧ image.slotIn .active = some .a ∧ three.views[(2 : Port)][(3 : Handle)] = none
        ∧ ∀ h < (3 : Handle), (three.views[(2 : Port)][h]).isSome = true)
      ∧ (s.takes .closeView (ask 2 0 [4]) ∧ 3 < (4 : Byte).toNat)
      ∧ (three.takes .closeView (ask 2 0 [3]) ∧ (3 : Byte) = byteOf (3 : Handle).val)
      ∧ (full.takes .closeView (ask 2 0 [3]) ∧ full.views[(2 : Port)][(3 : Handle)] = some w) := by
  dsimp only
  and_intros <;> decide +kernel

theorem witness_ClaimRefusals :
    let s := vol5 image
    let pinned : Volume := { image with pinned := true }
    let revoking : Claim := { held with state := .revoking }
    s.mode = .normal
      ∧ (s.takes .claim (ask 0 32 [0]) ∧ s.takes .claim (ask 0 5 [2]) ∧ 1 < (2 : Byte).toNat)
      ∧ (s.takes .claim (ask 0 31 [1]) ∧ s.vols[(31 : Vol)] = none)
      ∧ (vol5 { image with deleting := true }).takes .claim (ask 0 5 [1])
      ∧ (s.takes .claim (ask 2 5 [1]) ∧ inMask image.writers 2 = false)
      ∧ (({ vol5 pinned with pinen := true } : State).takes .claim (ask 0 5 [1]) ∧ inMask pinned.writers 0 = true)
      ∧ ((claimed held s).takes .claim (ask 1 5 [1]) ∧ (claimed held s).claimOf 5 = some 0 ∧ held.holder = 1 ∧ held.state = .held)
      ∧ ((claimed revoking s).takes .claim (ask 1 5 [0]) ∧ (claimed revoking s).claimOf 5 = some 0 ∧ revoking.state = .revoking)
      ∧ (({ claimed held s with waits := [{ port := 0, vol := 5, tag := 1 }] } : State).takes .claim (ask 0 5 [1])) := by
  dsimp only
  and_intros <;> decide +kernel

/-- The last clause of the refusals: the claim in the way is another port's. -/
theorem witness_ClaimRefusals_waiting : ∀ (c : ClaimIx) cl, (claimed held (vol5 image)).claimOf 5 = some c →
    (claimed held (vol5 image)).claims[c] = some cl → cl.holder ≠ 0 := byClaim _ _ _ (by decide +kernel)

/-- Claims of P1 on volumes 6 to 8 in entries 0 to 2. -/
def three : State :=
  { vol5 image with claims := (Vector.ofFn (fun i : ClaimIx => some { held with vol := ⟨6 + i.val, by omega⟩ })).set 3 none }

/-- Claims of P1 on volumes 6 to 9 in all entries. -/
def four : State := { vol5 image with claims := Vector.ofFn (fun i : ClaimIx => some { held with vol := ⟨6 + i.val, by omega⟩ }) }

theorem witness_ClaimIsServedAtOnce :
    (three.takes .claim (ask 0 5 [1]) ∧ three.mode = .normal ∧ three.vols[(5 : Vol)] = some image ∧ image.deleting = false
      ∧ inMask image.writers 0 = true ∧ image.pinned = false ∧ (∀ d : ClaimIx, ∀ cl ∈ three.claims[d], cl.vol ≠ 5)
      ∧ (∀ w ∈ three.waits, ¬(w.port = 0 ∧ w.vol = 5)) ∧ three.claims[(3 : ClaimIx)] = none
      ∧ ∀ d < (3 : ClaimIx), (three.claims[d]).isSome = true)
    ∧ ((vol5 image).takes .claim (ask 0 5 [0]) ∧ (vol5 image).claims[(0 : ClaimIx)] = none) := by decide +kernel

theorem witness_ClaimWithoutWait :
    let s := claimed held (vol5 image)
    (s.takes .claim (ask 0 5 [0]) ∧ s.mode = .normal ∧ s.vols[(5 : Vol)] = some image ∧ inMask image.writers 0 = true
      ∧ (∀ d : ClaimIx, ∀ cl ∈ s.claims[d], cl.vol = 5 → cl.holder ≠ 0) ∧ s.claimOf 5 = some 0 ∧ s.claims[(0 : ClaimIx)] = some held)
    ∧ (four.takes .claim (ask 0 5 [0]) ∧ (∀ d : ClaimIx, ∀ cl ∈ four.claims[d], cl.vol = 5 → cl.holder ≠ 0)
      ∧ ∀ d : ClaimIx, (four.claims[d]).isSome = true ∧ ∀ cl ∈ four.claims[d], cl.vol ≠ 5) := by decide +kernel

/-- The eight waits of P2 and P3 for volumes 10 to 13. -/
def waits8 : List Waiter :=
  [{ port := 2, vol := 10, tag := 0 }, { port := 2, vol := 11, tag := 0 }, { port := 2, vol := 12, tag := 0 },
   { port := 2, vol := 13, tag := 0 }, { port := 3, vol := 10, tag := 0 }, { port := 3, vol := 11, tag := 0 },
   { port := 3, vol := 12, tag := 0 }, { port := 3, vol := 13, tag := 0 }]

theorem witness_ClaimWithWait :
    let s := claimed held (vol5 image)
    (∀ n ∈ [7, 8], let u : State := { s with waits := waits8.take n }
        u.takes .claim (ask 0 5 [1]) ∧ u.mode = .normal ∧ u.vols[(5 : Vol)] = some image ∧ u.waits.length = n
          ∧ (∀ d : ClaimIx, ∀ cl ∈ u.claims[d], cl.vol = 5 → cl.holder ≠ 0) ∧ (∀ w ∈ u.waits, ¬(w.port = 0 ∧ w.vol = 5))
          ∧ (∃ d : ClaimIx, ∃ cl ∈ u.claims[d], cl.vol = 5))
      ∧ (four.takes .claim (ask 0 5 [1]) ∧ ∀ d : ClaimIx, (four.claims[d]).isSome = true) := by decide +kernel

theorem witness_ReleaseEndsClaimsAndWaits :
    let s := claimed held (vol5 image)
    let w : Waiter := { port := 0, vol := 5, tag := 1 }
    let v : Waiter := { port := 2, vol := 5, tag := 1 }
    s.mode = .normal ∧ s.takes .release (ask 0 32 [])
      ∧ (s.takes .release (ask 1 5 []) ∧ s.heldClaim 1 5 = some 0)
      ∧ (({ s with waits := [v] ++ w :: [v] } : State).takes .release (ask 0 5 []) ∧ s.heldClaim 0 5 = none
        ∧ (∀ u ∈ [v], ¬(u.port = 0 ∧ u.vol = 5)))
      ∧ (s.takes .release (ask 0 5 []) ∧ ∀ w ∈ s.waits, ¬(w.port = 0 ∧ w.vol = 5)) := by decide +kernel

theorem witness_RenewReloadsTheLease :
    let s := claimed held (vol5 image)
    s.mode = .normal ∧ s.takes .renew (ask 0 32 []) ∧ (s.takes .renew (ask 0 5 []) ∧ s.heldClaim 0 5 = none)
      ∧ (s.takes .renew (ask 1 5 []) ∧ s.heldClaim 1 5 = some 0 ∧ s.claims[(0 : ClaimIx)] = some held) := by decide +kernel

theorem witness_RevocationProcedure :
    let s := claimed held (vol5 staging)
    s.claims[(0 : ClaimIx)] = some held
      ∧ (∃ e, (busy (bound (doing .erase (.erasing 257)) [0] []) s).engine = some e ∧ e.op.claim = some 0)
      ∧ ¬∃ e, s.engine = some e ∧ e.op.claim = some 0 :=
  ⟨by decide, ⟨_, rfl, rfl⟩, fun ⟨_, h, _⟩ => nomatch h⟩

theorem witness_GrantsGoToTheEarliestEligibleWaiter :
    let w : Waiter := { port := 0, vol := 5, tag := 1 }
    let v : Waiter := { port := 0, vol := 6, tag := 1 }
    let s : State := { vol5 image with waits := [v] ++ w :: [] }
    (s.claims[(0 : ClaimIx)] = none ∧ s.waits = [v] ++ w :: []
      ∧ (∃ x, s.vols[w.vol] = some x ∧ x.deleting = false ∧ (∀ d : ClaimIx, ∀ cl ∈ s.claims[d], cl.vol ≠ w.vol)
        ∧ (x.pinned = false ∨ s.pinen = false))
      ∧ s.vols[v.vol] = none)
    ∧ (∀ c : ClaimIx, (four.claims[c]).isSome = true) ∧ ready.waits = [] :=
  ⟨⟨by decide, by decide, ⟨image, by decide⟩, by decide⟩, by decide, by decide⟩

theorem witness_FinishSteps :
    let e := bound (doing .erase (.erasing 257)) [0] []
    let revoking : Claim := { held with state := .revoking, pending := 1 }
    (busy (doing .pin .none) ready).engine = some (doing .pin .none) ∧ (doing .pin .none).op.claim = none
      ∧ (busy e (claimed held (vol5 staging))).engine = some e ∧ e.op.claim = some 0 ∧ held.state = .held
      ∧ (busy e (claimed revoking (vol5 staging))).claims[(0 : ClaimIx)] = some revoking ∧ revoking.state = .revoking := by decide

/-- The arbiter finds work in each place, runs an operation, and completes another. -/
theorem witness_PickOrder :
    let fifo (p : Port) (v : Vol) : State := { vol5 image with fifos := ready.fifos.set p [{ pinOp with vol := some v }] }
    ({ ready with compactSlot := true } : State).compactSlot = true
      ∧ (∀ n : Fin 4, (fifo (ready.rr + 1 + n) 5).fifos[ready.rr + 1 + n] = { pinOp with vol := some 5 } :: []
        ∧ ∀ m : Fin 4, m < n → (fifo (ready.rr + 1 + n) 5).fifos[ready.rr + 1 + m] = [])
      ∧ (ready.compactSlot = false ∧ ∀ p : Port, ready.fifos[p] = [])
      ∧ ((fifo 2 5).engine = none ∧ (fifo 2 5).mode ≠ .starting) := by decide +kernel

theorem witness_PickOrder_starts :
    let fifo (v : Vol) : State := { vol5 image with fifos := ready.fifos.set 2 [{ pinOp with vol := some v }] }
    (∃ op t u, (fifo 5).takePick = some (op, t) ∧ startOp op t = .runs u)
      ∧ ∃ op t st body u, (fifo 6).takePick = some (op, t) ∧ startOp op t = .ends st body u :=
  ⟨⟨_, _, _, rfl, rfl⟩, ⟨_, _, _, _, _, rfl, rfl⟩⟩

/-- Queued records that start in another mode or state than the one they were taken in. -/
theorem witness_PickOrder_modes :
    let queued (s : State) (k : Kind) : State :=
      { s with fifos := s.fifos.set 2 [{ pinOp with kind := k, vol := none, params := [15, 3, 2, 1] }] }
    let compacts (s : State) : State := { s with compactSlot := true }
    (∀ s ∈ [queued degraded .pin, queued ready .format, queued unformatted .format, queued ready .provision,
        queued { ready with prov := .frozen } .provision, compacts ready, compacts degraded],
      s.engine = none ∧ s.mode ≠ .starting ∧ s.takePick.isSome = true)
    ∧ (let s := claimed { held with state := .revoking } ready
       let erase : Op := { pinOp with kind := .erase, claim := some 0 }
       ({ s with fifos := ready.fifos.set 2 [erase] } : State).takePick.isSome = true
        ∧ ¬∀ c ∈ erase.claim, ∃ cl ∈ s.claims[c], cl.state = .held) := by
  dsimp only
  and_intros <;> decide +kernel

theorem witness_ErasesAndProgramsEnd :
    let e := bound (doing .erase (.erasing 511)) [1] []
    let p := bound (doing .program (.programming 511 255)) ([0, 1, 0xFF, 0, 1, 0] ++ List.replicate 256 0) (List.replicate 256 0)
    let s := claimed held (vol5 staging)
    held.map = some [{ state := .erased, ptr := 0 }, { state := .unknown, ptr := 0 }] ∧ s.claims[(0 : ClaimIx)] = some held
      ∧ ((busy e s).engine = some e ∧ e.op.claim = some 0 ∧ e.op.kind = .erase ∧ e.phase = .erasing 511 ∧ e.op.params = [1])
      ∧ ((busy p s).engine = some p ∧ p.op.claim = some 0 ∧ p.op.kind = .program ∧ p.phase = .programming 511 255
        ∧ 511 * 65536 + 255 * 256 + p.op.data.length = 33554432) := by decide +kernel

theorem witness_CommitVerifyEnds :
    let e := bound (doing .commit .verifying) [0, 0, 0, 1, 0xFF, 0, 0, 0] []
    let s := busy e (claimed held (vol5 staging))
    s.engine = some e ∧ e.op.kind = .commit ∧ e.op.vol = some 5 ∧ e.phase = .verifying ∧ s.vols[(5 : Vol)] = some staging
      ∧ staging.slotIn .staging = some .b ∧ (wordAt e.op.params 0).toNat = 1 ∧ staging.base .b * 65536 + 1 ≤ 33554432
      ∧ crc32 ((List.range 1).map (fun o => s.store.read (staging.base .b * 65536 + o))) = wordAt e.op.params 4
      ∧ crc32 ((List.range 1).map (fun o => s.store.read (staging.base .b * 65536 + o))) ≠ wordAt [0, 0, 0, 1, 0, 0, 0, 0] 4
      ∧ s.journal = some { sector := .j0, epoch := 1, append := 2, seq := 3 }
      ∧ ({ s with journal := some { sector := .j0, epoch := 1, append := 2048, seq := 3 } } : State).journal
          = some { sector := .j0, epoch := 1, append := 2048, seq := 3 } := by decide +kernel

/-- The operation of a state has its record under program. -/
theorem writes_of (s : State) (k : Kind) (e : InFlight) (v : Vol) (en : JEntry) (j : Journal) (h : s.engine = some e)
    (h1 : e.op.kind = k ∧ e.op.vol = some v ∧ e.own = none ∧ e.entry = some en ∧ s.journal = some j ∧ j.append < Config.positions)
    (js : JSector) (h2 : e.phase = .journaling js) : s.writes k e v en j :=
  ⟨h, h1.1, h1.2.1, ⟨js, h2⟩, h1.2.2.1, h1.2.2.2.1, h1.2.2.2.2.1, h1.2.2.2.2.2⟩

/-- The journal of the small states. -/
def place3 : Journal := { sector := .j0, epoch := 1, append := 2, seq := 3 }

theorem witness_AdminEntriesComplete :
    let create : JRecord := .create (volByte 5) 0 64 255 511 3 3
    (busy (writing .createVolume create) ready).writes .createVolume (writing .createVolume create) 5 { seq := 3, content := create } place3
      ∧ (ready.vols[(5 : Vol)] = none ∧ 1 ≤ (64 : Byte).toNat ∧ (64 : Byte).toNat ≤ 64 ∧ (255 : Half).toNat ≤ 255
        ∧ 257 ≤ (511 : Half).toNat ∧ (511 : Half).toNat ≤ 511)
      ∧ (∀ kr ∈ [(Kind.deleteVolume, JRecord.delete (volByte 5)), (.setAccess, .access (volByte 5) 15 1), (.pin, .pin (volByte 5)),
            (.unpin, .unpin (volByte 5))],
          (busy (writing kr.1 kr.2) (vol5 image)).writes kr.1 (writing kr.1 kr.2) 5 { seq := 3, content := kr.2 } place3)
      ∧ (vol5 image).vols[(5 : Vol)] = some image := by
  refine ⟨writes_of _ _ _ _ _ _ rfl (by decide) .j0 rfl, by decide, ?_, by decide⟩
  intro kr h
  simp only [List.mem_cons, List.not_mem_nil, or_false] at h
  rcases h with h | h | h | h <;> subst h <;> exact writes_of _ _ _ _ _ _ rfl (by decide) .j0 rfl

/-- The claims that SET_ACCESS and PIN leave and revoke. -/
theorem witness_AdminEntriesComplete_claims :
    (∀ (c : ClaimIx) cl, (claimed held (vol5 image)).claimOf 5 = some c → (claimed held (vol5 image)).claims[c] = some cl →
        cl.state = .revoking ∨ inMask ((0x2 : Byte).setWidth 4) cl.holder = true)
      ∧ ((claimed held (vol5 image)).claimOf 5 = some 0 ∧ (claimed held (vol5 image)).claims[(0 : ClaimIx)] = some held
        ∧ held.state = .held ∧ inMask ((0x1 : Byte).setWidth 4) held.holder = false)
      ∧ ∀ (c : ClaimIx) cl, (vol5 image).claimOf 5 = some c → (vol5 image).claims[c] = some cl → cl.state = .revoking :=
  ⟨byClaim _ _ _ (by decide +kernel), by decide +kernel, byClaim _ _ _ (by decide +kernel)⟩

theorem witness_StagingEntriesComplete :
    let stage : JRecord := .stage (volByte 5) (slotCode .b)
    let commit : JRecord := .commit (volByte 5) (slotCode .b) 2 10 5
    let rollback : JRecord := .rollback (volByte 5)
    let s (k : Kind) (r : JRecord) (x : Volume) : State := busy (bound (writing k r) [] []) (claimed held (vol5 x))
    (s .beginStage stage image).writes .beginStage (bound (writing .beginStage stage) [] []) 5 { seq := 3, content := stage } place3
      ∧ (s .commit commit staging).writes .commit (bound (writing .commit commit) [] []) 5 { seq := 3, content := commit } place3
      ∧ (s .rollback rollback twice).writes .rollback (bound (writing .rollback rollback) [] []) 5 { seq := 3, content := rollback } place3
      ∧ (image.slot .b).state ≠ .active ∧ (image.slot (Slot.b).other).state ≠ .staging ∧ (staging.slot .b).state = .staging
      ∧ (2 : Word).toNat = staging.genCounter + 1 ∧ (twice.slot .a).state = .previous ∧ (twice.slot (Slot.a).other).state = .active :=
  ⟨writes_of _ _ _ _ _ _ rfl (by decide) .j0 rfl, writes_of _ _ _ _ _ _ rfl (by decide) .j0 rfl,
   writes_of _ _ _ _ _ _ rfl (by decide) .j0 rfl, by decide, by decide, by decide, by decide, by decide, by decide⟩

theorem witness_JournalWriteFaults :
    let e := writing .pin (.pin 5)
    let o := ownWriting .compact (.header 2) [.fin]
    let f := ownWriting .format (.header 1) [.fin]
    ((busy e (vol5 image)).engine = some e ∧ e.phase = .journaling .j0 ∧ e.own = none ∧ (vol5 image).journal = some place3)
      ∧ (∀ t ∈ [1, 2], ∀ a ∈ [2046, 2047], let s : State := { busy { e with tries := t } ready with
            journal := some { place3 with append := a } }
          s.journal = some { place3 with append := a } ∧ a < 2048)
      ∧ ((writing .deleteVolume (.delete 5)).op.kind = .deleteVolume ∧ (writing .deleteVolume (.delete 5)).op.vol = some 5)
      ∧ (o.own = some { pos := 0, seq := 1, written := 0, epoch := 1, todo := [.fin] } ∧ o.op.kind = .compact)
      ∧ f.op.kind = .format := by decide

theorem witness_CompactRuns :
    let e := doing .compact (.erasing 256)
    let h := ownWriting .compact (.header 2) [.vol 5, .fin]
    let z := ownWriting .compact (.snapEnd 2) []
    ((busy e ready).engine = some e ∧ e.op.kind = .compact ∧ e.phase = .erasing 256 ∧ ready.journal = some place3)
      ∧ (h.phase = .journaling .j0 ∧ h.entry = some { seq := 1, content := .header 2 } ∧ ∀ n, JRecord.header 2 ≠ .snapEnd n)
      ∧ (z.phase = .journaling .j0 ∧ z.entry = some { seq := 1, content := .snapEnd 2 }) :=
  ⟨by decide, ⟨rfl, rfl, fun _ h => nomatch h⟩, by decide⟩

theorem witness_FormatRuns :
    let h := ownWriting .format (.header 1) [.fin]
    let z := ownWriting .format (.snapEnd 2) []
    (∀ n ∈ [0, 256], (busy (doing .format (.erasing n)) unformatted).engine = some (doing .format (.erasing n))
        ∧ (doing .format (.erasing n)).op.kind = .format)
      ∧ (h.phase = .journaling .j0 ∧ h.entry = some { seq := 1, content := .header 1 }
        ∧ h.own = some { pos := 0, seq := 1, written := 0, epoch := 1, todo := [.fin] })
      ∧ (z.phase = .journaling .j0 ∧ z.entry = some { seq := 1, content := .snapEnd 2 }) := by decide +kernel

theorem witness_RowWritesEnd :
    let e : InFlight := { doing .provision .rowWriting with op := { pinOp with kind := .provision, vol := none, params := [15, 255, 16, 4] } }
    (busy e ready).engine = some e ∧ e.op.kind = .provision ∧ e.phase = .rowWriting ∧ e.op.params = [15, 255, 16, 4]
      ∧ provisionParams [15, 255, 16, 4] = true := by decide

theorem witness_LeasesRunDown :
    ready.claims[(0 : ClaimIx)] = none ∧ (claimed held ready).claims[(0 : ClaimIx)] = some held ∧ held.state = .held
      ∧ held.pending = 0 ∧ 1 < ({ held with lease := 2 } : Claim).lease ∧ ({ held with lease := 1 } : Claim).lease ≤ 1
      ∧ 0 < ({ held with pending := 1 } : Claim).pending ∧ ({ held with state := .revoking } : Claim).state = .revoking := by decide

/-- A part with a pinned volume whose claim is under revocation. -/
theorem witness_PinenLineMoves : ∀ v : Vol, ∀ x ∈ (claimed { held with state := .revoking } (vol5 { image with pinned := true })).vols[v],
    x.pinned = true → ∀ (c : ClaimIx) cl,
      (claimed { held with state := .revoking } (vol5 { image with pinned := true })).claimOf v = some c →
      (claimed { held with state := .revoking } (vol5 { image with pinned := true })).claims[c] = some cl → cl.state = .revoking :=
  fun v _ _ _ => byClaim _ v _ ((by decide +kernel : ∀ v : Vol, ∀ c : ClaimIx,
    (claimed { held with state := .revoking } (vol5 { image with pinned := true })).claimOf v = some c →
    ∀ cl ∈ (claimed { held with state := .revoking } (vol5 { image with pinned := true })).claims[c], cl.state = .revoking) v)

/-- Two claims of P1 on two volumes, one under revocation. -/
theorem witness_PortResets : ready.powered = true ∧ ready.resetLine = false ∧ (∀ c : ClaimIx, ∀ cl ∈ (claimed { held with state := .revoking } (vol5 image)).claims[c],
      cl.holder = 1 → cl.state = .revoking)
    ∧ (claimed held (vol5 image)).uniqueLaw
    ∧ (let s := ready.setHpi 1 (Hpi.cleared true true)
       s.frameLaw ∧ s.hpi[(1 : Port)].rst = true) := by decide +kernel

theorem witness_DeviceResets :
    let own := ownWriting .compact (.header 2) [.fin]
    let row : InFlight := { doing .provision .rowWriting with op := { pinOp with kind := .provision, vol := none, params := [1, 9, 16, 4] } }
    ready.engine = none
      ∧ (∀ ph ∈ [Phase.none, .verifying, .erasing 511, .programming 511 255, .journaling .j0],
          (busy (doing .erase ph) ready).engine = some (doing .erase ph))
      ∧ ((writing .pin (.pin 5)).own = none ∧ ready.journal = some place3)
      ∧ (own.own = some { pos := 0, seq := 1, written := 0, epoch := 1, todo := [.fin] })
      ∧ ((busy row ready).engine = some row ∧ row.phase = .rowWriting ∧ row.op.params = [1, 9, 16, 4]) := by decide +kernel

/-- The array of a part that has been formatted: a HEADER of epoch 1 and a SNAP_END in J0. -/
def formatted : Store :=
  (State.reset.store.program 0 (entryBytes { seq := 1, content := .header 1 })).program 32
    (entryBytes { seq := 2, content := .snapEnd 2 })

/-- Replay of that array: J0 under epoch 1, no volume, and the append point after the two entries. -/
theorem test_replay_formatted : replay formatted
    = some { journal := { sector := .j0, epoch := 1, append := 2, seq := 3 }, skipped := 0, dir := Vector.replicate 32 none } :=
  (replay_prefix formatted 2 1 (by decide) (by decide +kernel) (by decide +kernel) (by decide +kernel)).trans (by decide +kernel)

/-- A part at start-up, with a blank and with a formatted array. -/
theorem witness_StartUpEnds :
    (State.reset.powered = true ∧ State.reset.resetLine = false ∧ State.reset.mode = .starting ∧ State.reset.engine = none)
      ∧ replay State.reset.store = none
      ∧ (∃ r, replay ({ State.reset with store := formatted } : State).store = some r)
      ∧ ready.mode ≠ .starting :=
  ⟨by decide, replay_blank _ rfl rfl, ⟨_, test_replay_formatted⟩, by decide⟩

theorem witness_ReplayChoosesAndEndsSessions : ∃ r, replay formatted = some r ∧ r.journal.sector = .j0 ∧ r.journal.append ≠ 0
    ∧ r.journal.append ≤ 2047 := ⟨_, test_replay_formatted, rfl, by decide, by decide⟩

/-- Where replay stands after the SNAP_END, with a STAGING slot B in volume 5: a COMMIT is applied, one of another generation and
a CREATE of a volume in use are skipped and counted (R124). -/
theorem witness_ReplayChoosesAndEndsSessions_entries :
    let r : Rebuild := { dir := (vol5 staging).vols, last := none, ended := true, skipped := 0 }
    let after (c : JRecord) : Rebuild := rebuildStep r (some (some { seq := 9, content := c }))
    r.ended = true ∧ r.dir[(5 : Vol)] = some staging ∧ r.dir[(6 : Vol)] = none
      ∧ (after (.commit 5 (slotCode .b) 2 10 5)).dir[(5 : Vol)] = some twice
      ∧ (∀ c ∈ [JRecord.commit 5 (slotCode .b) 3 10 5, .create 5 0 1 1 257 0 0, .stage 5 (slotCode .a), .pin 6, .rollback 32],
        after c = { r with skipped := 1 }) := by decide +kernel

/-- The same array after a volume 5 was created and a session on it begun: CREATE and STAGE of slot A follow. -/
def journaled : Store :=
  (formatted.program 64 (entryBytes { seq := 3, content := .create 5 0x1234 2 1 257 7 3 })).program 96
    (entryBytes { seq := 4, content := .stage 5 0 })

/-- What the journal holds of volume 5 in that array. -/
def open5 : Volume :=
  { image with genCounter := 0, slotA := { state := .staging, image := none } }

/-- The part after that session has ended, slot A STALE where the journal reads STAGING, with the HEADER of a COMPACT under
program in J1. -/
def compacting : State :=
  { vol5 { open5 with slotA := { state := .stale, image := none } } with
    store := journaled
    journal := some { sector := .j0, epoch := 1, append := 4, seq := 5 }
    engine := some {
      port := none, op := compactOp, phase := .journaling .j1, suspends := 0, eraseBudget := 16, programBudget := 4
      discard := false, entry := some { seq := 1, content := .header 2 }, tries := 0
      own := some { pos := 0, seq := 1, written := 0, epoch := 2, todo := [.vol 5, .slot 5 .a, .slot 5 .b, .fin] } } }

/-- J0 of that array as replay judges it. -/
theorem journaled_j0 : judged journaled .j0
    = [some (some { seq := 1, content := .header 1 }), some (some { seq := 2, content := .snapEnd 2 }),
       some (some { seq := 3, content := .create 5 0x1234 2 1 257 7 3 }), some (some { seq := 4, content := .stage 5 0 })]
      ++ List.replicate 2044 none :=
  (judged_prefix journaled .j0 4 (by decide) (by decide +kernel) (by decide +kernel)).trans
    (congrArg (· ++ List.replicate 2044 none) (by decide +kernel))

/-- J1 of that array is blank. -/
theorem journaled_j1 : judged journaled .j1 = List.replicate 2048 none :=
  (judged_prefix journaled .j1 0 (by decide) (by decide +kernel) (by decide +kernel)).trans rfl

/-- Replay of that array. -/
theorem test_replay_journaled : replay journaled
    = some { journal := { sector := .j0, epoch := 1, append := 4, seq := 5 }, skipped := 0
             dir := (vol5 { open5 with slotA := { state := .stale, image := none } }).vols } :=
  (replay_prefix journaled 4 1 (by decide) (by decide +kernel) (by decide +kernel) (by decide +kernel)).trans (by decide +kernel)

/-- A part in NORMAL over that array keeps the law of the journal if its volumes and its engine do. -/
theorem journalLaw_of_journaled (s : State) (hs : s.store = journaled) (hm : s.mode = .normal)
    (hj : s.journal = some { sector := .j0, epoch := 1, append := 4, seq := 5 })
    (hv : placedApart s.vols ∧ ∀ v : Vol, ∀ x ∈ s.vols[v], x.kept) (hf : followsJournal s.vols (vol5 open5).vols)
    (he : ∀ e ∈ s.engine, s.placeLaw e) (hb : s.bindLaw) : s.journalLaw := by
  refine ⟨hv, ?_, fun h => ?_, fun _ => ?_, ?_, he, hb⟩
  · intro r hr
    rw [hs, test_replay_journaled] at hr
    cases hr
    exact ⟨by decide, by decide +kernel, by decide +kernel⟩
  · rw [hm] at h
    cases h
  · rw [hj]
    rfl
  · intro j h
    rw [hj] at h
    cases h
    refine ⟨_, (congrArg replay hs).trans test_replay_journaled, rfl, ?_⟩
    rw [hs, journaled_j0, rebuild_append_blank]
    exact hf

theorem witness_ReplayChoosesAndEndsSessions_law : compacting.journalLaw := by
  refine journalLaw_of_journaled _ rfl rfl rfl (by decide +kernel) (by decide +kernel) (fun e he => ?_) (by decide +kernel)
  cases he
  have hj : judged compacting.store .j1 = _ := journaled_j1
  simp only [State.placeLaw]
  simp only [State.ownLaw, State.finished]
  simp only [List.take_zero, List.nil_append, hj]
  refine ⟨by decide, by decide, by decide, by decide, rfl, ?_, ?_⟩
  · refine List.all_eq_true.mpr fun x hx => ?_
    rw [List.eq_of_mem_replicate (List.mem_of_mem_drop hx)]
    rfl
  · decide +kernel

theorem witness_ReplayChoosesAndEndsSessions_step : compacting.store.wf = true ∧ compacting.modeLaw ∧ compacting.uniqueLaw ∧ compacting.recordLaw
    ∧ ∃ t, exec .snapshotEntryCompletes compacting = .next t := by
  exact ⟨by decide +kernel, ⟨by decide +kernel, by decide +kernel⟩, by decide +kernel, by decide +kernel, ⟨_, rfl⟩⟩

/-- The directory of `twice` with the sizes and bases of R4 at their limits. -/
theorem witness_SnapshotsRebuildTheDirectory :
    let x : Volume := { twice with size := 64, baseA := 255, baseB := 511, genCounter := 4294967295 }
    let d : Directory := (Vector.replicate 32 none).set 0 (some x) |>.set 31 (some { twice with size := 1 })
    ∀ v : Vol, ∀ x ∈ d[v], 1 ≤ x.size ∧ x.size ≤ 64 ∧ 1 ≤ x.baseA ∧ x.baseA ≤ 255 ∧ 257 ≤ x.baseB ∧ x.baseB ≤ 511
      ∧ x.genCounter ≤ 4294967295
      ∧ (∀ i ∈ (x.slot .a).image, 1 ≤ i.gen ∧ i.gen ≤ 4294967295 ∧ i.len ≤ 4294967295)
      ∧ ∀ i ∈ (x.slot .b).image, 1 ≤ i.gen ∧ i.gen ≤ 4294967295 ∧ i.len ≤ 4294967295 := by decide +kernel

/-- The last byte of the array, and a page beside it. -/
theorem witness_ArrayReadsWhatWasWritten : 0 < 256 ∧ 33554176 + 256 ≤ 33554432 ∧ 33554176 ≤ 33554431
    ∧ 511 * 65536 ≤ 33554431 ∧ 33554431 < 511 * 65536 + 65536 := by decide

/-- A part in use: volume 5 with two images, a claim of P1, a view of P2, a wait of P0; volume 6 pinned under PINEN. -/
def lived : State :=
  { (claimed { held with map := none } (vol5 twice)).setView 2 1 (some { vol := 5, slot := .b, gen := 2, len := 10 }) with
    vols := (vol5 twice).vols.set 6 (some { image with baseA := 3, baseB := 259, pinned := true })
    waits := [{ port := 0, vol := 5, tag := 1 }]
    pinen := true
    store := formatted }

theorem witness_ArrayStaysCanonical : lived.store.wf = true ∧ ∃ t, exec (.renew (ask 1 5 [])) lived = .next t :=
  ⟨by decide +kernel, ⟨_, rfl⟩⟩

/-- A FETCH of P1 in progress that has selected the head of the queue. -/
def fetching : State :=
  let r : Response := { tag := 9, kind := .claim, status := .claimed, body := [50] }
  (ready.push 1 r).setHpi 1 { Hpi.cleared false true with
    queue := [r], frame := some { status := 0x81, bytes := [0x02], selected := some r } }

theorem witness_EntriesNeverRunOut : lived.unformattedLaw ∧ lived.entryLaw ∧ fetching.frameLaw
    ∧ (∃ t, exec (.renew (ask 1 5 [])) lived = .next t)
    ∧ ∃ t, exec (.fetchFrame 1 .deselect (clocked 8 0)) fetching = .next t ∧ t.hpi[1].queue = [] :=
  ⟨by decide +kernel, by decide +kernel, by decide +kernel, ⟨_, rfl⟩, ⟨_, rfl, by decide +kernel⟩⟩

theorem witness_ModesAndRangesAreKept : lived.startingLaw ∧ lived.unformattedLaw ∧ lived.idleLaw ∧ lived.rangeLaw :=
  ⟨by decide +kernel, by decide +kernel, by decide +kernel, by decide +kernel⟩

theorem witness_ClaimsAndWaitsStayUnique : lived.uniqueLaw ∧ lived.waitLaw := ⟨by decide +kernel, by decide +kernel⟩

theorem witness_PinnedVolumesStayFree : lived.recordLaw ∧ lived.pinLaw ∧ lived.pinen = true
    ∧ (lived.vols[(6 : Vol)]).map Volume.pinned = some true :=
  ⟨fun _ he => (by cases he), by decide +kernel, by decide, by decide +kernel⟩

theorem witness_DirectoryLawsAreKept :
    (∀ r, replay lived.store = some r → ∀ v : Vol, ∀ x ∈ r.dir[v], x.sound) ∧ lived.guardLaw ∧ lived.claimedLaw
      ∧ lived.slotLaw := by
  refine ⟨?_, fun _ he => (by cases he), by decide +kernel, by decide +kernel⟩
  intro r hr v x hx
  rw [show replay lived.store = _ from test_replay_formatted] at hr
  cases hr
  simp at hx

/-- A part whose P1 erases sector 1 of slot A of volume 5 under its claim, slot A being STAGING in the journal too. -/
def erasing : State :=
  { claimed { held with pending := 1, map := some (List.replicate 2 { state := .unknown, ptr := 0 }) } (vol5 open5) with
    store := journaled
    journal := some { sector := .j0, epoch := 1, append := 4, seq := 5 }
    engine := some (bound (doing .erase (.erasing 2)) [1] []) }

theorem witness_DirectoryLawsAreKept_staging : erasing.modeLaw ∧ erasing.uniqueLaw ∧ erasing.bindLaw ∧ erasing.stagingLaw
    ∧ erasing.viewLaw ∧ (erasing.engine.bind InFlight.workSector) = some 2
    ∧ erasing.vols[(5 : Vol)] = some open5 ∧ open5.base .a ≤ 2 ∧ 2 < open5.base .a + open5.size
    ∧ (open5.slot .b).state ≠ .staging ∧ ∃ t, exec (.eraseCompletion true) erasing = .next t :=
  ⟨⟨by decide +kernel, by decide +kernel⟩, by decide +kernel, by decide +kernel, by decide +kernel, by decide +kernel,
    by decide +kernel, by decide +kernel, by decide, by decide, by decide, ⟨_, rfl⟩⟩

theorem witness_DirectoryLawsAreKept_journal : erasing.journalLaw := by
  refine journalLaw_of_journaled _ rfl rfl rfl (by decide +kernel) (by decide +kernel) (fun e he => ?_) (by decide +kernel)
  cases he
  exact ⟨rfl, .inr (.inr ⟨rfl, by decide, by decide⟩)⟩

/-- The view of `lived` is that of the ACTIVE slot. -/
theorem witness_DirectoryLawsAreKept_view : lived.viewLaw := by
  intro p h w hw
  refine ⟨twice, ?_⟩
  revert p h w
  decide +kernel

theorem witness_VolumesKeepTheirPlace : ready.mode ≠ .starting ∧ (vol5 twice).mode ≠ .starting
    ∧ (vol5 twice).vols[(5 : Vol)] = some twice ∧ ∃ t, exec .pinenDeassertion (vol5 twice) = .next t ∧ t.vols[(5 : Vol)] = some twice :=
  ⟨by decide, by decide, by decide, ⟨_, rfl, by decide⟩⟩

/-- A provisioned part. -/
def frozen : State :=
  { ready with
    row := .bytes 1 9 16 4 (crc32 [1, 9, 16, 4])
    prov := .frozen
    values := { admin := 1, lease := 9, eraseBudget := 16, programBudget := 4 } }

theorem witness_FrozenRowsStay : frozen.startingLaw ∧ deriveProv frozen.row = .frozen ∧ (∀ e ∈ frozen.engine, e.phase ≠ .rowWriting)
    ∧ frozen.prov = .frozen ∧ frozen.values = valuesOf .frozen frozen.row ∧ ∃ t, exec .pinenAssertion frozen = .next t :=
  ⟨by decide +kernel, by decide +kernel, by decide, by decide, by decide, ⟨_, rfl⟩⟩

end Sys2Proof.Tests
end

section
/-! QUERY_VOLUME (R21): the layout of the volume report at the offsets of section 10.5, and the answers of the request. -/

namespace Sys2Proof.Machine

/-! ### A field at an offset of a body -/

theorem byteAt_drop (body : List Byte) (n i : Nat) : byteAt (body.drop n) i = byteAt body (n + i) := by
  simp only [byteAt, List.getD_eq_getElem?_getD, List.getElem?_drop]

theorem halfAt_drop (body : List Byte) (n i : Nat) : halfAt (body.drop n) i = halfAt body (n + i) := by
  simp only [halfAt, byteAt_drop, Nat.add_assoc]

theorem wordAt_drop (body : List Byte) (n i : Nat) : wordAt (body.drop n) i = wordAt body (n + i) := by
  simp only [wordAt, halfAt_drop, Nat.add_assoc]

section
variable {body rest : List Byte} {n : Nat}

/-- A body that goes on with a 2-byte field from an offset has it there. -/
theorem halfAt_of_drop {h : Half} (e : body.drop n = be16 h ++ rest) : halfAt body n = h :=
  calc halfAt body n = halfAt (body.drop n) 0 := (halfAt_drop body n 0).symm
    _ = halfAt (be16 h ++ rest) 0 := by rw [e]
    _ = h := halfAt_append [] h rest

/-- A body that goes on with a 4-byte field from an offset has it there. -/
theorem wordAt_of_drop {w : Word} (e : body.drop n = be32 w ++ rest) : wordAt body n = w :=
  calc wordAt body n = wordAt (body.drop n) 0 := (wordAt_drop body n 0).symm
    _ = wordAt (be32 w ++ rest) 0 := by rw [e]
    _ = w := wordAt_append [] w rest

end

/-! ### The claim fields and the flags -/

/-- Bit 0 is the pin and bit 1 the deletion under way. -/
theorem volumeFlags_toNat (x : Volume) :
    (volumeFlags x).toNat = (if x.pinned then 1 else 0) + (if x.deleting then 2 else 0) := by
  unfold volumeFlags
  cases x.pinned <;> cases x.deleting <;> rfl

section
variable (s : State) (v : Vol)

theorem claimReport_none (h : s.claimOf v = none) : claimReport s v = [0xFF, 0] := by
  simp only [claimReport, h]

theorem claimReport_some {c : ClaimIx} {cl : Claim} (h : s.claimOf v = some c) (hc : s.claims[c] = some cl) :
    claimReport s v = [byteOf cl.holder.val, if cl.state = .held then 1 else 2] := by
  simp only [claimReport, h, hc]
  cases cl.state <;> rfl

theorem claimReport_two_bytes : ∃ holder state, claimReport s v = [holder, state] := by
  unfold claimReport
  split
  · exact ⟨_, _, rfl⟩
  · split <;> exact ⟨_, _, rfl⟩

/-- Taking a request reloads a lease at most, and the claim fields show none (R51, R181). -/
theorem claimReport_taken (k : Kind) (f : Submit) : claimReport (s.taken k f) v = claimReport s v := by
  have sameClaim : (s.taken k f).claimOf v = s.claimOf v := State.taken_claimOf s k f v
  cases hc : s.claimOf v with
  | none => rw [claimReport_none s v hc, claimReport_none _ v (sameClaim.trans hc)]
  | some c =>
    rcases State.taken_claims s k f c with same | ⟨cl, before, after⟩
    · simp only [claimReport, sameClaim, hc, same]
    · rw [claimReport_some s v hc before, claimReport_some _ v (sameClaim.trans hc) after]

end

/-! ### The volume report (section 10.5) -/

section
variable (s : State) (v : Vol) (x : Volume)

/-- The report of a request is that of the part before it: its taking changes nothing that the report shows (R21). -/
theorem volumeReport_taken (k : Kind) (f : Submit) : volumeReport (s.taken k f) v x = volumeReport s v x := by
  simp only [volumeReport, claimReport_taken, State.viewCount, State.openViews, State.taken_views, State.taken_waits]

/-- The report from offset 41 on: the claim fields, the view counts and the number of waiters. -/
theorem volumeReport_drop_claim : (volumeReport s v x).drop 41 = claimReport s v
    ++ [byteOf (s.viewCount v .a), byteOf (s.viewCount v .b), byteOf (s.waits.countP (fun w => w.vol == v))] := rfl

theorem volumeReport_length : (volumeReport s v x).length = 46 := by
  obtain ⟨holder, state, h⟩ := claimReport_two_bytes s v
  rw [volumeReport, h]
  rfl

/-- The fields of the record outside its slots, at offsets 0 to 14. -/
theorem volumeReport_record :
    byteAt (volumeReport s v x) 0 = volByte v ∧ halfAt (volumeReport s v x) 1 = x.label
      ∧ byteAt (volumeReport s v x) 3 = byteOf x.size
      ∧ halfAt (volumeReport s v x) 4 = BitVec.ofNat 16 x.baseA ∧ halfAt (volumeReport s v x) 6 = BitVec.ofNat 16 x.baseB
      ∧ byteAt (volumeReport s v x) 8 = x.readers.setWidth 8 ∧ byteAt (volumeReport s v x) 9 = x.writers.setWidth 8
      ∧ byteAt (volumeReport s v x) 10 = volumeFlags x
      ∧ wordAt (volumeReport s v x) 11 = BitVec.ofNat 32 x.genCounter :=
  ⟨rfl, halfAt_of_drop rfl, rfl, halfAt_of_drop rfl, halfAt_of_drop rfl, rfl, rfl, rfl, wordAt_of_drop rfl⟩

/-- The fields of slot A from offset 15 on and of slot B from offset 28 on. -/
theorem volumeReport_slot (sl : Slot) :
    let o := if sl = .a then 15 else 28
    byteAt (volumeReport s v x) o = slotStateCode (x.slot sl).state
      ∧ wordAt (volumeReport s v x) (o + 1) = BitVec.ofNat 32 (x.slot sl).gen
      ∧ wordAt (volumeReport s v x) (o + 5) = BitVec.ofNat 32 (x.slot sl).len
      ∧ wordAt (volumeReport s v x) (o + 9) = (x.slot sl).crc := by
  cases sl with
  | a => exact ⟨rfl, wordAt_of_drop rfl, wordAt_of_drop rfl, wordAt_of_drop rfl⟩
  | b => exact ⟨rfl, wordAt_of_drop rfl, wordAt_of_drop rfl, wordAt_of_drop rfl⟩

/-- The claim fields stand at offsets 41 and 42. -/
theorem volumeReport_claim {holder state : Byte} (h : claimReport s v = [holder, state]) :
    byteAt (volumeReport s v x) 41 = holder ∧ byteAt (volumeReport s v x) 42 = state := by
  rw [← byteAt_drop _ 41 0, ← byteAt_drop _ 41 1, volumeReport_drop_claim, h]
  exact ⟨rfl, rfl⟩

/-- The view counts and the number of waiters stand at offsets 43 to 45. -/
theorem volumeReport_counts :
    byteAt (volumeReport s v x) 43 = byteOf (s.viewCount v .a) ∧ byteAt (volumeReport s v x) 44 = byteOf (s.viewCount v .b)
      ∧ byteAt (volumeReport s v x) 45 = byteOf (s.waits.countP (fun w => w.vol == v)) := by
  obtain ⟨holder, state, h⟩ := claimReport_two_bytes s v
  rw [← byteAt_drop _ 41 2, ← byteAt_drop _ 41 3, ← byteAt_drop _ 41 4, volumeReport_drop_claim, h]
  exact ⟨rfl, rfl, rfl⟩

end

/-! ### The answers of QUERY_VOLUME -/

/-- QUERY_VOLUME is answered by its volume index and the directory (R21). -/
theorem exec_queryVolume (f : Submit) (s : State) (h : s.takes .queryVolume f) (hm : s.mode = .normal ∨ s.mode = .degraded)
    (hp : f.params = []) :
    exec (.queryVolume f) s = .next (takeQueryVolume (requestOfFrame .queryVolume f) f.port (s.taken .queryVolume f)) := by
  have mode : modeRefusal .queryVolume s.mode = none := by
    rcases hm with hm | hm <;> rw [hm] <;> rfl
  have count : if Kind.queryVolume = .program then 6 ≤ f.params.length else f.params.length = paramSize .queryVolume := by
    simp [hp, paramSize]
  rw [exec_takes s (.queryVolume f) .queryVolume f rfl h (by decide) (by decide), takeRequest_passes s _ f mode count]
  rfl

section
variable (f : Submit) (s : State)

theorem takeQueryVolume_badRequest (h : 31 < f.volume.toNat) :
    takeQueryVolume (requestOfFrame .queryVolume f) f.port s =
      s.push f.port (responseTo f .queryVolume .badRequest []) := by
  simp only [takeQueryVolume, requestOfFrame, volIndex_none _ h]
  rfl

theorem takeQueryVolume_noVolume {v : Vol} (hv : f.volume = volByte v) (h : s.vols[v] = none) :
    takeQueryVolume (requestOfFrame .queryVolume f) f.port s = s.push f.port (responseTo f .queryVolume .noVolume []) := by
  simp only [takeQueryVolume, requestOfFrame, hv, volIndex_volByte, h]
  rfl

theorem takeQueryVolume_ok {v : Vol} {x : Volume} (hv : f.volume = volByte v) (h : s.vols[v] = some x) :
    takeQueryVolume (requestOfFrame .queryVolume f) f.port s =
      s.push f.port (responseTo f .queryVolume .ok (volumeReport s v x)) := by
  simp only [takeQueryVolume, requestOfFrame, hv, volIndex_volByte, h]
  rfl

end

/-- Settles O12: the request goes on to `takeQueryVolume`, whose three answers are told apart by the index and the directory, and
the body of OK is the volume report of the part before the request. -/
theorem queryVolumeReports : Obligations.QueryVolumeReports := by
  intro f s takes mode params
  rw [exec_queryVolume f s takes mode params]
  have vols : (s.taken .queryVolume f).vols = s.vols := State.taken_vols s .queryVolume f
  refine ⟨rfl, fun high => ?badRequest, fun v hv free => ?noVolume, fun v x hv used => ?ok⟩
  case badRequest => rw [takeQueryVolume_badRequest f _ high]
  case noVolume => rw [takeQueryVolume_noVolume f _ hv (by rw [vols, free])]
  case ok =>
    obtain ⟨index, label, size, baseA, baseB, readers, writers, flags, counter⟩ := volumeReport_record s v x
    obtain ⟨viewsA, viewsB, waiters⟩ := volumeReport_counts s v x
    refine ⟨volumeReport s v x, ?_, volumeReport_length s v x, index, label, size, baseA, baseB, readers, writers, ?_, counter,
      volumeReport_slot s v x, fun unclaimed => ?_, fun c cl claimed entry => ?_, viewsA, viewsB, waiters⟩
    · rw [takeQueryVolume_ok f _ hv (by rw [vols, used]), volumeReport_taken]
    · rw [flags, volumeFlags_toNat]
    · exact volumeReport_claim s v x (claimReport_none s v unclaimed)
    · exact volumeReport_claim s v x (claimReport_some s v claimed entry)

end Sys2Proof.Machine
end

section
/-! CLAIM (R40 to R43): a claim that passes the checks of R40, and its answers without wait where it cannot be served at once. -/

namespace Sys2Proof.Machine

/-! ### What the checks of R40 look at -/

section
variable (s : State) (p : Port) (v : Vol)

/-- No claim on a volume is a port's own, so the port has no HELD claim there (R39). -/
theorem State.heldClaim_none (others : ∀ d : ClaimIx, ∀ cl ∈ s.claims[d], cl.vol = v → cl.holder ≠ p) :
    s.heldClaim p v = none := by
  cases held : s.heldClaim p v with
  | none => rfl
  | some c =>
    obtain ⟨cl, entry, onVolume, holder, -⟩ := State.heldClaim_some s p v c held
    exact absurd holder (others c cl entry onVolume)

theorem State.ownClaim_none (others : ∀ d : ClaimIx, ∀ cl ∈ s.claims[d], cl.vol = v → cl.holder ≠ p) :
    s.ownClaim p v = none := by
  cases claimed : s.claimOf v with
  | none => simp only [State.ownClaim, claimed]
  | some c =>
    obtain ⟨cl, entry, onVolume⟩ := State.claimOf_some s v c claimed
    simp only [State.ownClaim, claimed, entry, if_neg (others c cl entry onVolume)]

theorem State.waitsFor_eq_false (noWait : ∀ w ∈ s.waits, ¬(w.port = p ∧ w.vol = v)) : s.waitsFor p v = false := by
  simpa [State.waitsFor] using noWait

theorem State.pinRefuses_eq_false (x : Volume) (unpinned : x.pinned = false ∨ s.pinen = false) : s.pinRefuses x = false :=
  Bool.and_eq_false_iff.mpr unpinned

theorem State.freeClaim_none (full : ∀ d : ClaimIx, (s.claims[d]).isSome = true) : s.freeClaim = none :=
  (claimIxs_find_none _).mpr fun d => by rw [Option.isNone_eq_false_iff, full d]

/-- Without a HELD claim of the port on the volume that the frame names, the taking of the frame reloads no lease (R51). -/
theorem State.taken_without_claim (k : Kind) (f : Submit) (named : f.volume = volByte v) (noClaim : s.heldClaim f.port v = none) :
    s.taken k f = (s.framed f).setOutcome f.port .taken := by
  have unclaimed : ((s.framed f).setOutcome f.port .taken).heldClaim f.port v = none := noClaim
  simp only [State.taken, State.reload, named, volIndex_volByte, unclaimed, ite_self]

end

/-! ### The checks of CLAIM -/

theorem exec_claim (f : Submit) (s : State) (h : s.takes .claim f) (hm : s.mode = .normal ∨ s.mode = .degraded)
    {b : Byte} (hp : f.params = [b]) :
    exec (.claim f) s = .next (takeClaim (requestOfFrame .claim f) f.port (s.taken .claim f)) := by
  have mode : modeRefusal .claim s.mode = none := by
    rcases hm with hm | hm <;> rw [hm] <;> rfl
  have count : if Kind.claim = .program then 6 ≤ f.params.length else f.params.length = paramSize .claim := by
    simp [hp, paramSize]
  rw [exec_takes s (.claim f) .claim f rfl h (by decide) (by decide), takeRequest_passes s _ f mode count]
  rfl

section
variable (f : Submit) (s : State) {v : Vol} {x : Volume} {wait : Bool} (named : f.volume = volByte v)
  (flag : claimWait f.params = some wait) (used : s.vols[v] = some x) (stays : x.deleting = false)
  (writer : inMask x.writers f.port = true) (unpinned : x.pinned = false ∨ s.pinen = false)
  (others : ∀ d : ClaimIx, ∀ cl ∈ s.claims[d], cl.vol = v → cl.holder ≠ f.port)
  (noWait : ∀ w ∈ s.waits, ¬(w.port = f.port ∧ w.vol = v))

include named flag used stays writer unpinned others noWait

/-- No check of R40 refuses the claim, so it goes on to R41 to R43. -/
theorem takeClaim_passes :
    takeClaim (requestOfFrame .claim f) f.port s = claimChecked (requestOfFrame .claim f) f.port v wait s := by
  have index : volIndex (requestOfFrame .claim f).volume = some v := by simp only [requestOfFrame, named, volIndex_volByte]
  have waitFlag : claimWait (requestOfFrame .claim f).params = some wait := flag
  simp [takeClaim, index, waitFlag, used, stays, writer, s.pinRefuses_eq_false x unpinned, s.ownClaim_none f.port v others,
    s.waitsFor_eq_false f.port v noWait]

/-- A CLAIM that passes the checks of R40 reloads no lease, for the port has no claim on the volume. -/
theorem exec_claim_passes (h : s.takes .claim f) (hm : s.mode = .normal ∨ s.mode = .degraded) {b : Byte} (hp : f.params = [b]) :
    exec (.claim f) s =
      .next (claimChecked (requestOfFrame .claim f) f.port v wait ((s.framed f).setOutcome f.port .taken)) := by
  rw [exec_claim f s h hm hp, s.taken_without_claim v .claim f named (s.heldClaim_none f.port v others),
    takeClaim_passes f ((s.framed f).setOutcome f.port .taken) named flag used stays writer unpinned others noWait]

end

/-! ### The answers without wait (R42) -/

section
variable (f : Submit) (p : Port) (v : Vol) (s : State)

/-- Another port's claim is in the way: the answer shows its holder and its state, and nothing else changes. -/
theorem claimChecked_claimHeld {c : ClaimIx} {cl : Claim} (claimed : s.claimOf v = some c) (entry : s.claims[c] = some cl) :
    claimChecked (requestOfFrame .claim f) p v false s =
      s.push p (responseTo f .claim .claimHeld [byteOf cl.holder.val, if cl.state = .held then 1 else 2]) := by
  have code : claimStateCode (some cl.state) = if cl.state = .held then 1 else 2 := by cases cl.state <;> rfl
  simp only [claimChecked, claimed, entry, code]
  rfl

/-- The volume is unclaimed and the Claim Table has no entry free: nothing but the answer changes. -/
theorem claimChecked_tableFull (unclaimed : s.claimOf v = none) (full : s.freeClaim = none) :
    claimChecked (requestOfFrame .claim f) p v false s = s.push p (responseTo f .claim .tableFull []) := by
  simp only [claimChecked, unclaimed, full]
  rfl

end

/-- Settles O28: a claim that passes the checks of R40 goes on to `claimChecked` on the part with the outcome TAKEN and its Claim
Unit as before, and there the claim on the volume, or a table full of claims on other volumes, decides the answer. -/
theorem claimWithoutWait : Obligations.ClaimWithoutWait := by
  intro f s v x takes mode params named used stays writer unpinned others noWait
  have flag : claimWait f.params = some false := by rw [params]; rfl
  rw [exec_claim_passes f s named flag used stays writer unpinned others noWait takes mode params]
  refine ⟨fun c cl claimed entry => ?claimHeld, fun full => ?tableFull⟩
  case claimHeld => exact congrArg Host.Outcome.next (claimChecked_claimHeld f f.port v _ claimed entry)
  case tableFull =>
    have unclaimed : s.claimOf v = none := (s.claimOf_none v).mpr fun d cl entry => by
      obtain ⟨cl', entry', other⟩ := full d
      obtain rfl : cl' = cl := Option.some.inj (entry'.symm.trans entry)
      exact other
    have noneFree : s.freeClaim = none := s.freeClaim_none fun d => by
      obtain ⟨cl, entry, -⟩ := full d
      rw [entry, Option.isSome_some]
    exact congrArg Host.Outcome.next (claimChecked_tableFull f f.port v _ unclaimed noneFree)

end Sys2Proof.Machine
end

section
/-! What every command leaves of the provisioning row (R155): the relation, and the operations over the state that keep it. -/

namespace Sys2Proof.Machine

/-- No write of the provisioning row is under way (R151). -/
def State.rowIdle (s : State) : Prop := ∀ e ∈ s.engine, e.phase ≠ .rowWriting

/-- The row, what follows from it, and the items that decide whether it is written or derived again: the mode and the engine. -/
def State.aroundRow (s : State) : Row × ProvState × Values × Mode × Option InFlight :=
  (s.row, s.prov, s.values, s.mode, s.engine)

/-- A part that has come from `s` to `t` with its row kept: the row and what follows from it are the same, a start-up under way
has not ended, and in FROZEN no write of the row has begun. -/
structure RowKept (s t : State) : Prop where
  row : t.row = s.row
  prov : t.prov = s.prov
  values : t.values = s.values
  starting : s.mode = .starting → s.engine = none → t.mode = .starting ∧ t.engine = none
  idle : s.prov = .frozen → s.rowIdle → t.rowIdle

/-- The state that a command ends in, if it ends in one, keeps the row. -/
def RowKeptBy (s : State) : Res → Prop
  | .next t => RowKept s t
  | .fault _ => True
  | .refused _ => True

theorem RowKept.refl (s : State) : RowKept s s := ⟨rfl, rfl, rfl, fun m e => ⟨m, e⟩, fun _ i => i⟩

section
variable {s t u : State}

theorem RowKept.trans (h : RowKept s t) (h' : RowKept t u) : RowKept s u where
  row := h'.row.trans h.row
  prov := h'.prov.trans h.prov
  values := h'.values.trans h.values
  starting m e := h'.starting (h.starting m e).1 (h.starting m e).2
  idle f i := h'.idle (h.prov.trans f) (h.idle f i)

/-- A change of items that the row does not meet. -/
theorem RowKept.congr (h : RowKept s t) (same : u.aroundRow = t.aroundRow) : RowKept s u := by
  simp only [State.aroundRow, Prod.mk.injEq] at same
  obtain ⟨row, prov, values, mode, engine⟩ := same
  exact h.trans ⟨row, prov, values, fun m e => ⟨mode.trans m, engine.trans e⟩, fun _ i e he => i e (engine ▸ he)⟩

theorem RowKeptBy.trans (h : RowKept s t) {r : Res} (h' : RowKeptBy t r) : RowKeptBy s r :=
  match r, h' with
  | .next _, h' => h.trans h'
  | .fault _, _ => trivial
  | .refused _, _ => trivial

/-! ### One item at a time -/

section
variable (h : RowKept s t)
include h

theorem RowKept.answer (p : Port) (r : Request) (st : Status) (body : List Byte) : RowKept s (t.answer p r st body) :=
  h.congr rfl

theorem RowKept.onClaim (c : ClaimIx) (f : Claim → Claim) : RowKept s (t.onClaim c f) := h.congr rfl

/-- The array, the directory, the journal's place and the skipped-entry counter take other values. -/
theorem RowKept.setStore {d : Directory} {st : Store} {j : Option Journal} {n : Nat} :
    RowKept s { t with vols := d, store := st, journal := j, skipped := n } := h.congr rfl

/-- A change of the operation in flight that does not begin a write of the row. -/
theorem RowKept.onFlight (f : InFlight → InFlight) (begins : ∀ e, (f e).phase = .rowWriting → e.phase = .rowWriting) :
    RowKept s (t.onFlight f) where
  row := h.row
  prov := h.prov
  values := h.values
  starting m e := ⟨(h.starting m e).1, by rw [State.onFlight_engine, (h.starting m e).2]; rfl⟩
  idle fr i e he := by
    obtain ⟨e', mem, rfl⟩ := Option.mem_map.mp he
    exact fun writes => h.idle fr i e' mem (begins e' writes)

theorem RowKept.enter (ph : Phase) (other : ph ≠ .rowWriting) : RowKept s (t.enter ph) :=
  h.onFlight _ fun _ writes => absurd writes other

/-- The operation in flight ends (R103). -/
theorem RowKept.engineIdle : RowKept s { t with engine := none } where
  row := h.row
  prov := h.prov
  values := h.values
  starting m e := ⟨(h.starting m e).1, rfl⟩
  idle _ _ _ he := nomatch he

/-! ### Claims and waiters -/

theorem RowKept.grantAll : RowKept s t.grantAll := by
  obtain ⟨ws, cs, q, e, -⟩ := t.grantAll_frame
  rw [e]
  exact h.congr rfl

theorem RowKept.revoke (c : ClaimIx) (n : Notice) : RowKept s (t.revoke c n) := by
  obtain ⟨d, ws, cs, fs, q, e, -⟩ := t.revoke_frame c n
  rw [e]
  exact h.congr rfl

theorem RowKept.revokeVolume (v : Vol) (n : Notice) : RowKept s (t.revokeVolume v n) := by
  unfold State.revokeVolume
  split
  · exact h
  · split
    · exact h
    · split
      · exact h.revoke _ n
      · exact h

theorem RowKept.removeWaiters (f : Waiter → Bool) (st : Status) : RowKept s (t.removeWaiters f st) := by
  rw [State.removeWaiters_told]
  exact h.congr rfl

theorem RowKept.reload (p : Port) (k : Kind) (volume : Byte) : RowKept s (t.reload p k volume) := by
  unfold State.reload
  split
  · split
    · exact h
    · split
      · exact h
      · exact h.congr rfl
  · exact h

theorem RowKept.finish (st : Status) (body : List Byte) : RowKept s (t.finish st body) := by
  obtain ⟨d, ws, cs, q, e, -⟩ := t.finish_frame st body
  rw [e]
  exact h.engineIdle.congr rfl

theorem RowKept.compactionCheck : RowKept s t.compactionCheck := by
  unfold State.compactionCheck State.scheduleCompaction
  split
  · exact h
  · split
    · split
      · exact h
      · exact h.congr rfl
    · exact h

end

/-- A loop whose body keeps the row keeps the row. -/
theorem RowKept.foldl {α : Type} {f : State → α → State} (body : ∀ {u} (a : α), RowKept s u → RowKept s (f u a))
    (xs : List α) (h : RowKept s t) : RowKept s (xs.foldl f t) := by
  induction xs generalizing t with
  | nil => exact h
  | cons x rest ih => exact ih (body x h)

end

end Sys2Proof.Machine
end

section
/-! The Array Engine keeps a FROZEN row (R151, R155): of all starts only that of a PROVISION writes the row, and it
needs BLANK. -/

namespace Sys2Proof.Machine

/-- Start-up is over, or an operation is in flight: then a change of the mode or of the engine is no end of start-up. -/
def State.active (s : State) : Prop := s.mode = .starting → s.engine ≠ none

/-- What a start comes to keeps the row. -/
def Started.RowKept (s : State) : Started → Prop
  | .ends _ _ t => Machine.RowKept s t
  | .runs t => Machine.RowKept s t

theorem Started.RowKept.of_ends {s t : State} {r : Started} {st : Status} {body : List Byte} (h : r.RowKept s)
    (ends : r = .ends st body t) : Machine.RowKept s t := by
  subst ends
  exact h

theorem Started.RowKept.of_runs {s t : State} {r : Started} (h : r.RowKept s) (runs : r = .runs t) : Machine.RowKept s t := by
  subst runs
  exact h

section
variable {s t : State} (h : RowKept s t) (active : s.active)
include h active

theorem RowKept.setMode (m : Mode) : RowKept s { t with mode := m } where
  row := h.row
  prov := h.prov
  values := h.values
  starting m e := absurd e (active m)
  idle := h.idle

theorem RowKept.setEngine (e : InFlight) (other : e.phase ≠ .rowWriting) : RowKept s { t with engine := some e } where
  row := h.row
  prov := h.prov
  values := h.values
  starting m e := absurd e (active m)
  idle _ _ e' he := by
    obtain rfl := Option.mem_some.mp he
    exact other

/-! ### Starts (R93) -/

theorem RowKept.beginRecord (r : JRecord) : (beginRecord r t).RowKept s := by
  unfold Machine.beginRecord
  split
  · exact h.setMode active .degraded
  · split
    · exact h.onFlight _ fun _ writes => nomatch writes
    · exact h.setMode active .degraded

theorem RowKept.startCreate (op : Op) (v : Vol) : (startCreate op v t).RowKept s := by
  unfold Machine.startCreate
  split
  · exact h
  · split
    · exact h
    · exact h.beginRecord active _

theorem RowKept.startDelete (v : Vol) : (startDelete v t).RowKept s := by
  unfold Machine.startDelete
  split
  · exact h
  · split
    · exact h
    · split
      · exact h
      · have begun := h.beginRecord active (.delete (volByte v))
        split
        · rename_i ends
          exact begun.of_ends ends
        · rename_i runs
          exact (begun.of_runs runs).congr rfl

theorem RowKept.startAccess (op : Op) (v : Vol) : (startAccess op v t).RowKept s := by
  unfold Machine.startAccess
  split
  · exact h
  · split
    · exact h
    · exact h.beginRecord active _

theorem RowKept.startPin (v : Vol) : (startPin v t).RowKept s := by
  unfold Machine.startPin
  split
  · exact h
  · exact h.beginRecord active _

theorem RowKept.startUnpin (v : Vol) : (startUnpin v t).RowKept s := by
  unfold Machine.startUnpin
  split
  · exact h
  · split
    · exact h
    · exact h.beginRecord active _

theorem RowKept.startStage (v : Vol) : (startStage v t).RowKept s := by
  unfold Machine.startStage
  split
  · exact h
  · split
    · exact h
    · split
      · exact h
      · exact h.beginRecord active _

theorem RowKept.startRollback (v : Vol) : (startRollback v t).RowKept s := by
  unfold Machine.startRollback
  split
  · exact h
  · split
    · exact h
    · split
      · exact h
      · exact h.beginRecord active _

omit active in
theorem RowKept.startErase (op : Op) (v : Vol) : (startErase op v t).RowKept s := by
  unfold Machine.startErase
  split
  · exact h
  · split
    · exact h
    · split
      · exact h
      · exact h.enter _ (by simp)

omit active in
theorem RowKept.startProgram (op : Op) (v : Vol) : (startProgram op v t).RowKept s := by
  unfold Machine.startProgram
  split
  · exact h
  · split
    · exact h
    · dsimp only
      split
      · exact h
      · split
        · exact h
        · split
          · exact h
          · exact h.enter _ (by simp)

omit active in
theorem RowKept.startCommit (op : Op) (v : Vol) : (startCommit op v t).RowKept s := by
  unfold Machine.startCommit
  split
  · exact h
  · split
    · exact h
    · split
      · exact h
      · split
        · exact h
        · split
          · exact h
          · exact h.enter _ (by simp)

omit active in
theorem RowKept.startFormat : (startFormat t).RowKept s := by
  unfold Machine.startFormat
  split
  · exact h.enter _ (by simp)
  · exact h

omit active in
theorem RowKept.startCompact : (startCompact t).RowKept s := by
  unfold Machine.startCompact
  split
  · split
    · exact h.enter _ (by simp)
    · exact h
  · exact h

/-- R151: a PROVISION begins to write the row in BLANK alone. -/
theorem RowKept.startProvision : (startProvision t).RowKept s := by
  unfold Machine.startProvision
  split
  · rename_i blank
    exact {
      row := h.row
      prov := h.prov
      values := h.values
      starting := fun m e => absurd e (active m)
      idle := fun frozen _ => absurd (blank.symm.trans (h.prov.trans frozen)) (by decide) }
  · exact h

theorem RowKept.startKind (op : Op) : (startKind op t).RowKept s := by
  unfold Machine.startKind
  split
  · exact h.startCreate active op _
  · exact h.startDelete active _
  · exact h.startAccess active op _
  · exact h.startPin active _
  · exact h.startUnpin active _
  · exact h.startStage active _
  · exact h.startErase op _
  · exact h.startProgram op _
  · exact h.startCommit op _
  · exact h.startRollback active _
  · exact h.startFormat
  · exact h.startProvision active
  · exact h.startCompact
  · exact h

theorem RowKept.startOp (op : Op) : (startOp op t).RowKept s := by
  unfold Machine.startOp
  split
  · exact h
  · split
    · exact h
    · exact h.startKind active op

/-! ### The pick (R90, R91) -/

/-- An operation just picked has entered no phase (R92). -/
theorem RowKept.takePick {op : Op} {u : State} (picked : t.takePick = some (op, u)) : RowKept s u := by
  unfold State.takePick at picked
  split at picked
  · cases picked
    exact (h.setEngine active (flight none compactOp t.values) (by simp [flight])).congr rfl
  · split at picked
    · cases picked
    · split at picked
      · cases picked
      · rename_i p _ _ _ _ _
        cases picked
        exact (h.setEngine active (flight (some p) op t.values) (by simp [flight])).congr rfl

theorem RowKept.pickUpTo (n : Nat) : RowKept s (pickUpTo n t) := by
  induction n generalizing t with
  | zero => exact h
  | succ n ih =>
    unfold Machine.pickUpTo
    cases picked : t.takePick with
    | none => exact h
    | some q =>
      obtain ⟨op, u⟩ := q
      have start := (h.takePick active picked).startOp active op
      dsimp only
      cases started : Machine.startOp op u with
      | runs w => exact start.of_runs started
      | ends st body w => exact ih ((start.of_ends started).finish st body)

end

section
variable {s t : State} (h : RowKept s t)
include h

/-- In STARTING the arbiter picks nothing (R121). -/
theorem RowKept.pick : RowKept s t.pick := by
  unfold State.pick
  split
  · exact h
  · rename_i picks
    have active : t.active := fun m => absurd (.inr m) picks
    exact h.trans ((RowKept.refl t).pickUpTo active t.work)

theorem RowKept.complete (st : Status) (body : List Byte) : RowKept s (t.complete st body) := (h.finish st body).pick

theorem RowKept.enqueue (p : Port) (op : Op) : RowKept s (t.enqueue p op) :=
  RowKept.pick (t := t.setFifo p (t.fifos[p] ++ [op])) (h.congr rfl)

end

end Sys2Proof.Machine
end

section
/-! Every frame keeps the row (R155): taking a request answers, queues an operation, or works on claims, waiters and views. -/

namespace Sys2Proof.Machine

section
variable {s t : State} (h : RowKept s t) (r : Request) (p : Port)
include h

theorem RowKept.takeAdmin : RowKept s (takeAdmin r p t) := by
  unfold Machine.takeAdmin
  split
  · exact h.answer ..
  · split
    · exact h.answer ..
    · split
      · exact h.answer ..
      · exact h.enqueue ..

theorem RowKept.takeFormat : RowKept s (takeFormat r p t) := by
  unfold Machine.takeFormat
  split
  · exact h.answer ..
  · exact h.enqueue ..

theorem RowKept.takeProvision : RowKept s (takeProvision r p t) := by
  unfold Machine.takeProvision
  split
  · exact h.answer ..
  · split
    · exact h.answer ..
    · exact h.enqueue ..

theorem RowKept.takeStaging : RowKept s (takeStaging r p t) := by
  unfold Machine.takeStaging
  split
  · exact h.answer ..
  · split
    · exact h.answer ..
    · split
      · exact h.answer ..
      · exact (h.onClaim ..).enqueue ..

/-- A suspension leaves the phase of the operation in flight as it is (R101). -/
theorem RowKept.answerRead (x : Resolved) : RowKept s (answerRead r p x t) := by
  unfold Machine.answerRead
  split
  · exact h.answer ..
  · exact (h.onFlight (fun e => { e with suspends := e.suspends + 1 }) fun _ writes => writes).answer ..
  · exact h.answer ..

theorem RowKept.takeResolved (res : Except Status Resolved) : RowKept s (takeResolved res r p t) := by
  cases res with
  | error st => exact h.answer ..
  | ok x => exact h.answerRead r p x

theorem RowKept.takeOpenView : RowKept s (takeOpenView r p t) := by
  unfold Machine.takeOpenView
  split
  · exact h.answer ..
  · split
    · exact h.answer ..
    · split
      · exact h.answer ..
      · split
        · exact h.answer ..
        · split
          · exact h.answer ..
          · split
            · exact h.answer ..
            · exact h.congr rfl

theorem RowKept.takeCloseView : RowKept s (takeCloseView r p t) := by
  unfold Machine.takeCloseView
  split
  · exact h.answer ..
  · split
    · exact h.answer ..
    · exact h.congr rfl

theorem RowKept.takeQueryVolume : RowKept s (takeQueryVolume r p t) := by
  unfold Machine.takeQueryVolume
  split
  · exact h.answer ..
  · split
    · exact h.answer ..
    · exact h.answer ..

theorem RowKept.claimWaits (v : Vol) : RowKept s (claimWaits r p v t) := by
  unfold Machine.claimWaits
  split
  · exact h.answer ..
  · exact h.congr rfl

theorem RowKept.claimChecked (v : Vol) (wait : Bool) : RowKept s (claimChecked r p v wait t) := by
  unfold Machine.claimChecked
  split
  · split
    · exact h.congr rfl
    · split
      · exact h.claimWaits r p v
      · exact h.answer ..
  · split
    · exact h.claimWaits r p v
    · split
      · exact h.answer ..
      · exact h.answer ..

theorem RowKept.takeClaim : RowKept s (takeClaim r p t) := by
  unfold Machine.takeClaim
  split
  · split
    · exact h.answer ..
    · split
      · exact h.answer ..
      · split
        · exact h.answer ..
        · split
          · exact h.answer ..
          · split
            · exact h.answer ..
            · exact h.answer ..
            · split
              · exact h.answer ..
              · exact h.claimChecked r p _ _
  · exact h.answer ..

theorem RowKept.takeRelease : RowKept s (takeRelease r p t) := by
  unfold Machine.takeRelease
  split
  · exact h.answer ..
  · split
    · exact h.revoke ..
    · split
      · exact h.congr rfl
      · exact h.answer ..

theorem RowKept.takeRenew : RowKept s (takeRenew r p t) := by
  unfold Machine.takeRenew
  split
  · exact h.answer ..
  · split
    · exact h.answer ..
    · exact h.answer ..

theorem RowKept.takeKind : RowKept s (takeKind r p t) := by
  unfold Machine.takeKind
  cases r.kind with
  | queryDevice => exact h.answer ..
  | queryVolume => exact h.takeQueryVolume r p
  | createVolume | deleteVolume | setAccess | pin | unpin => exact h.takeAdmin r p
  | format => exact h.takeFormat r p
  | provision => exact h.takeProvision r p
  | read | readStaged => exact h.takeResolved r p _
  | openView => exact h.takeOpenView r p
  | closeView => exact h.takeCloseView r p
  | claim => exact h.takeClaim r p
  | release => exact h.takeRelease r p
  | renew => exact h.takeRenew r p
  | beginStage | erase | program | commit | rollback => exact h.takeStaging r p
  | compact => exact h

theorem RowKept.takeRequest : RowKept s (takeRequest r p t) := by
  unfold Machine.takeRequest
  split
  · exact h.answer ..
  · split
    · exact h.answer ..
    · exact h.takeKind r p

end

/-! ### The moments of a frame -/

section
variable (r : Request) (p : Port) (f : Frame) (s : State)

theorem submitRequest_rowKept : RowKeptBy s (submitRequest r p s) := by
  have set : ∀ o, RowKept s (s.setOutcome p o) := fun o => (RowKept.refl s).congr rfl
  unfold submitRequest
  split
  · exact set .rejected
  · split
    · exact set .full
    · dsimp only
      split
      · trivial
      · exact ((set .taken).reload p r.kind r.volume).takeRequest r p

theorem closeFrame_rowKept (out : List Byte) : RowKept s (s.closeFrame p out) := (RowKept.refl s).congr rfl

theorem finishStatus_rowKept (extra : Nat) : RowKeptBy s (finishStatus p extra f s) := closeFrame_rowKept p s _

theorem finishFetch_rowKept (bits : Nat) : RowKeptBy s (finishFetch p bits f s) := by
  unfold finishFetch
  dsimp only
  split
  · exact (RowKept.refl s).congr rfl
  · exact closeFrame_rowKept p s _

theorem finishSubmit_rowKept (extra : Nat) : RowKeptBy s (finishSubmit r p extra f s) :=
  RowKeptBy.trans (closeFrame_rowKept p s _) (submitRequest_rowKept r p _)

theorem finishRawSubmit_rowKept (bytes : List Byte) : RowKeptBy s (finishRawSubmit p bytes f s) := by
  unfold finishRawSubmit
  dsimp only
  split
  · exact (RowKept.refl s).congr rfl
  · exact RowKeptBy.trans (closeFrame_rowKept p s _) (submitRequest_rowKept _ p _)

theorem finishRaw_rowKept (bytes : List Byte) : RowKeptBy s (finishRaw p bytes f s) := by
  unfold finishRaw
  split
  · exact closeFrame_rowKept p s _
  · split
    · exact finishStatus_rowKept p f s _
    · split
      · exact finishRawSubmit_rowKept p f s _
      · split
        · exact finishFetch_rowKept p f s _
        · exact (RowKept.refl s).congr rfl

end

section
variable (p : Port) (wire : List Byte) {finish : Frame → State → Res} (ends : ∀ f u, RowKeptBy u (finish f u)) (s : State)
include ends

theorem endFrame_rowKept : RowKeptBy s (endFrame p wire finish s) := by
  unfold endFrame
  split
  · exact (RowKept.refl s).congr rfl
  · split
    · exact ends _ s
    · exact RowKept.refl s

/-- A frame whose end keeps the row keeps it at every moment (R156). -/
theorem frameStep_rowKept (m : Moment) : RowKeptBy s (frameStep p m wire finish s) := by
  have same := RowKept.refl s
  unfold frameStep
  split
  · cases m <;> exact same.congr rfl
  · cases m with
    | select => exact same.congr rfl
    | received n =>
      change RowKept s (s.receive p wire n)
      unfold State.receive
      split
      · exact same
      · split
        · exact same.congr rfl
        · exact same
    | deselect => exact endFrame_rowKept p wire ends s
    | whole => exact RowKeptBy.trans (t := s.openFrame p) (same.congr rfl) (endFrame_rowKept p wire ends _)

end

theorem submitFrame_rowKept (k : Kind) (f : Submit) (s : State) : RowKeptBy s (submitFrame k f s) :=
  frameStep_rowKept f.port _ (fun _ u => finishSubmit_rowKept _ f.port _ u _) s f.moment

end Sys2Proof.Machine
end

section
/-! The ends of engine work keep the row (R155), but for the end of a write of the row itself. -/

namespace Sys2Proof.Machine

variable {s : State}

theorem State.flightIs_engine {k : Kind} {e : InFlight} (h : s.flightIs k = some e) : s.engine = some e := by
  unfold State.flightIs at h
  split at h
  · split at h
    · cases h; assumption
    · cases h
  · cases h

/-- The part is busy, so it is not in a start-up. -/
theorem State.active_of_busy {e : InFlight} (h : s.engine = some e) : s.active := fun _ idle => nomatch h.symm.trans idle

theorem RowKept.setMapEntry {t : State} (h : RowKept s t) (c : Option ClaimIx) (i : Nat) (m : MapEntry) :
    RowKept s (t.setMapEntry c i m) := by
  cases c with
  | none => exact h
  | some c => exact h.onClaim ..

variable (s)

theorem execEraseCompletion_rowKept (ok : Bool) : RowKeptBy s (execEraseCompletion ok s) := by
  unfold execEraseCompletion
  split
  · exact RowKept.refl s
  · split
    · split
      · change RowKept s (eraseEnds ok _ _ s)
        unfold eraseEnds
        dsimp only
        split
        · exact ((RowKept.refl s).setStore.setMapEntry ..).complete ..
        · exact ((RowKept.refl s).setStore.setMapEntry ..).complete ..
      · trivial
    all_goals exact RowKept.refl s

theorem execProgramCompletion_rowKept (ok : Bool) : RowKeptBy s (execProgramCompletion ok s) := by
  unfold execProgramCompletion
  split
  · exact RowKept.refl s
  · split
    · split
      · change RowKept s (programEnds ok _ _ _ s)
        unfold programEnds
        dsimp only
        split
        · exact ((RowKept.refl s).setStore.setMapEntry ..).complete ..
        · exact ((RowKept.refl s).setStore.setMapEntry ..).complete ..
      · trivial
    all_goals exact RowKept.refl s

theorem verifyEnds_rowKept (active : s.active) (e : InFlight) (v : Vol) (x : Volume) (sl : Slot) :
    RowKept s (verifyEnds e v x sl s) := by
  unfold verifyEnds
  dsimp only
  split
  · exact (RowKept.refl s).complete ..
  · have begun := fun r => (RowKept.refl s).beginRecord active r
    split
    · rename_i runs
      exact (begun _).of_runs runs
    · rename_i ends
      exact ((begun _).of_ends ends).complete ..

theorem execCommitVerifyEnd_rowKept : RowKeptBy s (execCommitVerifyEnd s) := by
  unfold execCommitVerifyEnd
  split
  · exact RowKept.refl s
  · rename_i e flight
    split
    · split
      · exact RowKept.refl s
      · split
        · exact verifyEnds_rowKept s (State.active_of_busy (State.flightIs_engine flight)) ..
        · trivial
    all_goals exact RowKept.refl s

/-! ### Journal entries (R114, R115) -/

/-- R114 with what a kind adds, where that keeps the row. -/
theorem entryCompletes_rowKept (k : Kind) (after : InFlight → State → State) (body : InFlight → State → List Byte)
    (adds : ∀ e {t}, RowKept s t → RowKept s (after e t)) : RowKeptBy s (entryCompletes k after body s) := by
  unfold entryCompletes
  split
  · exact RowKept.refl s
  · split
    · exact (adds _ (RowKept.refl s).setStore.compactionCheck).complete ..
    · trivial

variable {s}

theorem RowKept.forVolume {f : Vol → State → State} (adds : ∀ v {t}, RowKept s t → RowKept s (f v t)) (e : InFlight)
    {t : State} (h : RowKept s t) : RowKept s (forVolume f e t) := by
  unfold Machine.forVolume
  split
  · exact h
  · exact adds _ h

section
variable {t : State} (h : RowKept s t)
include h

theorem RowKept.afterAccess (v : Vol) : RowKept s (afterAccess v t) := by
  unfold Machine.afterAccess
  split
  · exact h
  · dsimp only
    have removed := fun f => h.removeWaiters f .denied
    split
    · exact removed _
    · split
      · exact removed _
      · split
        · exact (removed _).revoke ..
        · exact removed _

theorem RowKept.afterPin (v : Vol) : RowKept s (afterPin v t) := by
  unfold Machine.afterPin
  split
  · exact (h.removeWaiters ..).revokeVolume ..
  · exact h

theorem RowKept.afterStage (e : InFlight) : RowKept s (afterStage e t) := by
  unfold Machine.afterStage
  split
  · split
    · exact h
    · exact h.onClaim ..
  · exact h

theorem RowKept.afterCommit (e : InFlight) : RowKept s (afterCommit e t) := by
  unfold Machine.afterCommit
  split
  · exact h
  · exact h.onClaim ..

/-- R17: the lost record of a DELETE_VOLUME. -/
theorem RowKept.clearDeleting (e : InFlight) : RowKept s (clearDeleting e t) := by
  unfold Machine.clearDeleting
  split
  · refine RowKept.forVolume (fun v u h => ?_) e h
    exact h.congr rfl
  · exact h

theorem RowKept.loseRecord (active : s.active) (e : InFlight) : RowKept s (loseRecord e t) := by
  have lost := ((h.setMode active .degraded).clearDeleting e).finish .arrayFault []
  unfold Machine.loseRecord
  dsimp only
  split
  · exact lost.grantAll.pick
  · exact lost.pick

theorem RowKept.loseOwn (active : s.active) (e : InFlight) : RowKept s (loseOwn e t) := by
  unfold Machine.loseOwn
  split
  · exact (h.setMode active .degraded).complete ..
  · exact h.complete ..

end

theorem currentFaults_rowKept (active : s.active) (e : InFlight) (j : Journal) : RowKept s (currentFaults e j s) := by
  unfold currentFaults
  dsimp only
  split
  · exact (RowKept.refl s).setStore.loseRecord active e
  · exact (RowKept.refl s).setStore.onFlight _ fun _ writes => writes

theorem ownFaults_rowKept (active : s.active) (e : InFlight) (sector : JSector) (o : OwnSector) :
    RowKept s (ownFaults e sector o s) := by
  unfold ownFaults
  dsimp only
  split
  · exact (RowKept.refl s).setStore.loseOwn active e
  · exact (RowKept.refl s).setStore.onFlight _ fun _ writes => writes

variable (s)

theorem execJournalWriteFault_rowKept : RowKeptBy s (execJournalWriteFault s) := by
  unfold execJournalWriteFault
  split
  · exact RowKept.refl s
  · rename_i e busy
    have active := State.active_of_busy busy
    split
    · split
      · split
        · exact ownFaults_rowKept active ..
        · trivial
      · split
        · exact RowKept.refl s
        · split
          · exact currentFaults_rowKept active ..
          · trivial
    all_goals exact RowKept.refl s

/-! ### COMPACT, FORMAT and PROVISION -/

variable {s} in
theorem RowKept.beginOwn {t : State} (h : RowKept s t) (sector : JSector) (epoch : Nat) (todo : List SnapItem) :
    RowKept s (t.beginOwn sector epoch todo) :=
  h.onFlight _ fun _ writes => nomatch writes

theorem execCompactEraseEnd_rowKept (ok : Bool) : RowKeptBy s (execCompactEraseEnd ok s) := by
  unfold execCompactEraseEnd
  split
  · rename_i flight _
    have active := State.active_of_busy (State.flightIs_engine flight)
    split
    · split
      · exact (RowKept.refl s).setStore.beginOwn ..
      · exact ((RowKept.refl s).setMode active .degraded).setStore.complete ..
    all_goals exact RowKept.refl s
  · exact RowKept.refl s

theorem ownCompletes_rowKept (k : Kind) (which : JRecord → Bool) : RowKeptBy s (ownCompletes k which s) := by
  unfold ownCompletes
  split
  · exact RowKept.refl s
  · split
    · exact RowKept.refl s
    · split
      · split
        · exact (RowKept.refl s).setStore.onFlight _ fun _ writes => writes
        · trivial
      · exact RowKept.refl s

theorem State.active_of_ownUnder {k : Kind} {x : JSector × JEntry × OwnSector} (h : s.ownUnder k = some x) : s.active := by
  unfold State.ownUnder at h
  split at h
  · cases h
  · rename_i flight
    exact State.active_of_busy (State.flightIs_engine flight)

theorem execCompactSnapEndCompletes_rowKept : RowKeptBy s (execCompactSnapEndCompletes s) := by
  unfold execCompactSnapEndCompletes
  split
  · exact RowKept.refl s
  · split
    · split
      · exact (RowKept.refl s).setStore.complete ..
      · trivial
    · exact RowKept.refl s

theorem execFormatEraseEnd_rowKept (ok : Bool) : RowKeptBy s (execFormatEraseEnd ok s) := by
  unfold execFormatEraseEnd
  split
  · exact RowKept.refl s
  · split
    · split
      · change RowKept s (formatErased _ s)
        unfold formatErased
        dsimp only
        split
        · exact (RowKept.refl s).setStore.enter _ (by simp)
        · exact (RowKept.refl s).setStore.beginOwn ..
      · exact (RowKept.refl s).setStore.complete ..
    all_goals exact RowKept.refl s

theorem execFormatSnapEndCompletes_rowKept : RowKeptBy s (execFormatSnapEndCompletes s) := by
  unfold execFormatSnapEndCompletes
  split
  · exact RowKept.refl s
  · rename_i under
    split
    · split
      · exact ((RowKept.refl s).setStore.setMode (s.active_of_ownUnder under) .normal).complete ..
      · trivial
    · exact RowKept.refl s

/-- The end of a row write finds none under way. -/
theorem execRowWriteEnd_rowKept (idle : s.rowIdle) (ok : Bool) : RowKeptBy s (execRowWriteEnd ok s) := by
  unfold execRowWriteEnd
  split
  · exact RowKept.refl s
  · rename_i e flight
    split
    · rename_i writes
      exact absurd writes (idle e (State.flightIs_engine flight))
    all_goals exact RowKept.refl s

end Sys2Proof.Machine
end

section
/-! Leases, lines, resets and power keep the row (R155). -/

namespace Sys2Proof.Machine

variable (s : State)

theorem expire_rowKept (c : ClaimIx) : RowKept s (s.expire c) := ((RowKept.refl s).onClaim ..).revoke ..

theorem execLeaseUnitEnd_rowKept (c : ClaimIx) : RowKeptBy s (execLeaseUnitEnd c s) := by
  unfold execLeaseUnitEnd
  split
  · exact RowKept.refl s
  · split
    · split
      · exact expire_rowKept s c
      · exact (RowKept.refl s).congr rfl
    · exact RowKept.refl s

theorem execLeaseExpiry_rowKept (c : ClaimIx) : RowKeptBy s (execLeaseExpiry c s) := by
  unfold execLeaseExpiry
  split
  · exact RowKept.refl s
  · split
    · exact expire_rowKept s c
    · exact RowKept.refl s

section
variable {s} {t : State} (h : RowKept s t)
include h

theorem RowKept.revokeIfPinned (v : Vol) : RowKept s (t.revokeIfPinned v) := by
  unfold State.revokeIfPinned
  split
  · exact h
  · split
    · exact h.revokeVolume ..
    · exact h

theorem RowKept.unbind (o : Op) : RowKept s (t.unbind o) := by
  unfold State.unbind
  split
  · exact h
  · exact h.onClaim ..

theorem RowKept.dropFifo (p : Port) : RowKept s (t.dropFifo p) :=
  RowKept.foldl (fun o h => h.unbind o) _ (h.congr rfl)

theorem RowKept.markDiscard (p : Port) : RowKept s (t.markDiscard p) :=
  h.onFlight _ fun e => by split <;> exact id

theorem RowKept.dropClaim (p : Port) (v : Vol) : RowKept s (t.dropClaim p v) := by
  unfold State.dropClaim
  split
  · exact h
  · exact h.revoke ..

end

theorem execPinenAssertion_rowKept : RowKeptBy s (execPinenAssertion s) :=
  have asserted : RowKept s { s with pinen := true } := (RowKept.refl s).congr rfl
  RowKept.foldl (fun v h => h.revokeIfPinned v) _ (asserted.removeWaiters _ .pinned)

theorem execPnrstAssert_rowKept (p : Port) : RowKeptBy s (execPnrstAssert p s) :=
  have closed : RowKept s ((s.setHpi p (Hpi.cleared true s.hpi[p].sel)).closeViews p) := (RowKept.refl s).congr rfl
  RowKept.foldl (fun v h => h.dropClaim p v) _ (((closed.dropFifo p).markDiscard p).congr rfl)

/-- R106: an abort that cuts no row write changes the array alone. -/
theorem State.abort_frame (idle : s.rowIdle) (cut : Cut) : ∃ st, s.abort cut = { s with store := st } := by
  unfold State.abort
  split
  · exact ⟨s.store, rfl⟩
  · rename_i e busy
    split
    · exact ⟨s.store, rfl⟩
    · exact ⟨s.store, rfl⟩
    · exact ⟨_, rfl⟩
    · exact ⟨_, rfl⟩
    · split
      · exact ⟨s.store, rfl⟩
      · split
        · exact ⟨s.store, rfl⟩
        · exact ⟨_, rfl⟩
    · rename_i writes
      exact absurd writes (idle e busy)

/-- R106, R174: a reset or a loss of power clears the volatile state and leaves the row. -/
theorem clearVolatile_rowKept (idle : s.rowIdle) (cut : Cut) : RowKept s (s.abort cut).clearVolatile := by
  obtain ⟨st, e⟩ := s.abort_frame idle cut
  rw [e]
  exact ⟨rfl, rfl, rfl, fun _ _ => ⟨rfl, rfl⟩, fun _ _ _ he => nomatch he⟩

theorem execResetDeassert_rowKept : RowKeptBy s (execResetDeassert s) := by
  unfold execResetDeassert
  split
  · exact (RowKept.refl s).congr rfl
  · exact RowKept.refl s

end Sys2Proof.Machine
end

section
/-! R155: a FROZEN row stays FROZEN. -/

namespace Sys2Proof.Machine

/-- Every command but the end of start-up keeps the row, as long as no write of the row is under way. -/
theorem exec_rowKept (c : Instr) (s : State) (idle : s.rowIdle) (other : c ≠ .startUpEnd) : RowKeptBy s (exec c s) := by
  have same := RowKept.refl s
  cases c with
  | statusFrame p m x => exact frameStep_rowKept p _ (fun f u => finishStatus_rowKept p f u _) s m
  | fetchFrame p m x => exact frameStep_rowKept p _ (fun f u => finishFetch_rowKept p f u _) s m
  | unknownFrame p m b => exact frameStep_rowKept p _ (fun f u => finishRaw_rowKept p f u _) s m
  | submitRejected p m b => exact frameStep_rowKept p _ (fun f u => finishRawSubmit_rowKept p f u _) s m
  | queryDevice f | queryVolume f | createVolume f | deleteVolume f | setAccess f | pin f | unpin f | format f | provision f
  | read f | openView f | closeView f | claim f | release f | renew f | beginStage f | erase f | program f | readStaged f
  | commit f | rollback f => exact submitFrame_rowKept _ f s
  | eraseCompletion ok => exact execEraseCompletion_rowKept s ok
  | programCompletion ok => exact execProgramCompletion_rowKept s ok
  | commitVerifyEnd => exact execCommitVerifyEnd_rowKept s
  | createEntryCompletes | unpinEntryCompletes | rollbackEntryCompletes =>
    exact entryCompletes_rowKept s _ noMore _ fun _ _ h => h
  | deleteEntryCompletes =>
    exact entryCompletes_rowKept s _ _ _ (RowKept.forVolume fun _ _ h => h.removeWaiters ..)
  | accessEntryCompletes => exact entryCompletes_rowKept s _ _ _ (RowKept.forVolume fun v _ h => h.afterAccess v)
  | pinEntryCompletes => exact entryCompletes_rowKept s _ _ _ (RowKept.forVolume fun v _ h => h.afterPin v)
  | stageEntryCompletes => exact entryCompletes_rowKept s _ _ _ fun e _ h => h.afterStage e
  | commitEntryCompletes => exact entryCompletes_rowKept s _ _ _ fun e _ h => h.afterCommit e
  | journalWriteFault => exact execJournalWriteFault_rowKept s
  | compactEraseEnd ok => exact execCompactEraseEnd_rowKept s ok
  | snapshotEntryCompletes => exact ownCompletes_rowKept s .compact fun r => !isSnapEnd r
  | formatHeaderCompletes => exact ownCompletes_rowKept s .format isHeader
  | compactSnapEndCompletes => exact execCompactSnapEndCompletes_rowKept s
  | formatEraseEnd ok => exact execFormatEraseEnd_rowKept s ok
  | formatSnapEndCompletes => exact execFormatSnapEndCompletes_rowKept s
  | rowWriteEnd ok => exact execRowWriteEnd_rowKept s idle ok
  | leaseUnitEnd i => exact execLeaseUnitEnd_rowKept s i
  | leaseExpiry i => exact execLeaseExpiry_rowKept s i
  | pinenAssertion => exact execPinenAssertion_rowKept s
  | pinenDeassertion | pnrstDeassert p => exact same.congr rfl
  | pnrstAssert p => exact execPnrstAssert_rowKept s p
  | resetAssert cut | powerLoss cut => exact (clearVolatile_rowKept s idle cut).congr rfl
  | resetDeassert => exact execResetDeassert_rowKept s
  | powerOn => exact (clearVolatile_rowKept s idle .during).congr rfl
  | startUpEnd => exact absurd rfl other

/-- A row that derives FROZEN and is not being written; outside STARTING the state and the values in force are those of the
row (R147, R148). -/
structure State.RowFrozen (u : State) : Prop where
  derives : deriveProv u.row = .frozen
  idle : u.rowIdle
  inForce : u.mode ≠ .starting → u.prov = .frozen ∧ u.values = valuesOf .frozen u.row

/-- What keeps the row keeps it FROZEN: a part in STARTING stays there with an idle engine, and in a part whose state is FROZEN
no PROVISION starts. -/
theorem RowKept.rowFrozen {s t : State} (kept : RowKept s t) (frozen : s.RowFrozen)
    (starting : s.mode = .starting → s.engine = none) : t.RowFrozen := by
  have derives : deriveProv t.row = .frozen := kept.row ▸ frozen.derives
  by_cases startUp : s.mode = .starting
  · obtain ⟨mode, engine⟩ := kept.starting startUp (starting startUp)
    exact ⟨derives, fun e he => (nomatch engine ▸ he), fun other => absurd mode other⟩
  · obtain ⟨prov, values⟩ := frozen.inForce startUp
    refine ⟨derives, kept.idle prov frozen.idle, fun _ => ⟨kept.prov.trans prov, ?_⟩⟩
    rw [kept.values, kept.row, values]

/-- The end of replay changes neither the row nor what follows from it, and begins no write of a FROZEN row (R125, R129). -/
theorem State.started_row (s : State) (frozen : s.prov = .frozen) (engine : s.engine = none) :
    s.started.row = s.row ∧ s.started.prov = s.prov ∧ s.started.values = s.values ∧ s.started.rowIdle := by
  have idle : s.rowIdle := fun e he => nomatch engine ▸ he
  unfold State.started
  split
  · exact ⟨rfl, rfl, rfl, idle⟩
  · rename_i r _
    have kept := (RowKept.refl { s with vols := r.dir, journal := some r.journal, skipped := r.skipped
                                        mode := .normal }).compactionCheck.pick
    exact ⟨kept.row, kept.prov, kept.values, kept.idle frozen idle⟩

/-- R147: the end of start-up derives FROZEN from a row that does. -/
theorem execStartUpEnd_rowFrozen {s t : State} (frozen : s.RowFrozen) (starting : s.mode = .starting → s.engine = none)
    (ends : execStartUpEnd s = .next t) : t.RowFrozen ∧ t.row = s.row := by
  unfold execStartUpEnd at ends
  split at ends
  · rename_i ready
    obtain rfl : s.deriveRow.emptyClaims.started = t := Host.Outcome.next.inj ends
    obtain ⟨row, prov, values, idle⟩ := s.deriveRow.emptyClaims.started_row frozen.derives (starting ready.2.2)
    have derives : deriveProv s.row = .frozen := frozen.derives
    refine ⟨⟨by rw [row]; exact derives, idle, fun _ => ⟨prov.trans derives, ?_⟩⟩, row⟩
    rw [values, row, ← derives]
    rfl
  · cases ends
    exact ⟨frozen, rfl⟩

/-- Settles O60: the end of start-up derives the state from the row again, and every other command keeps the row with what
follows from it (`exec_rowKept`). -/
theorem frozenRowsStay : Obligations.FrozenRowsStay := by
  intro c s t frozenRow law ⟨derives, idle, inForce⟩ next
  have frozen : s.RowFrozen := ⟨derives, idle, inForce⟩
  have starting : s.mode = .starting → s.engine = none := fun m => by
    obtain ⟨-, -, -, -, -, -, engine, -⟩ := law.2 m
    exact engine
  have stays : t.RowFrozen ∧ t.row = s.row := by
    by_cases startUp : c = .startUpEnd
    · subst startUp
      exact execStartUpEnd_rowFrozen frozen starting next
    · have kept : RowKept s t := by
        have ofCommand := exec_rowKept c s idle startUp
        rwa [next] at ofCommand
      exact ⟨kept.rowFrozen frozen starting, kept.row⟩
  exact ⟨⟨stays.1.derives, stays.1.idle, stays.1.inForce⟩, stays.2⟩

end Sys2Proof.Machine
end

section
/-! What a command comes to (R90, R103, R156 to R164): one event or one frame, then picks of the arbiter. The steps of a frame
and of the arbiter are told apart by what they change, each with the checks that were passed before it, so that a law of the part
is proved step by step and not command by command. -/

namespace Sys2Proof.Machine

/-- The fields of a claim that say whose it is: every field but its tag, lease, pending count and staging map. -/
def Claim.identity (cl : Claim) : Vol × Port × ClaimState := (cl.vol, cl.holder, cl.state)

/-- The port has room for `n` more responses and reservations, as long as the laws that the count rests on hold (R158, R163). -/
def State.room (s : State) (p : Port) (n : Nat) : Prop :=
  s.unformattedLaw → s.entryLaw → s.held p + s.reservations p + n ≤ Config.queueEntries

/-- An operation that a port may queue: only FORMAT and PROVISION in UNFORMATTED (R130), a staging operation bound to the HELD
claim of the port on its volume (R39, R60), and a PROGRAM with its data (R71). -/
structure State.Queueable (s : State) (p : Port) (o : Op) : Prop where
  unformatted : s.mode = .unformatted → o.kind = .format ∨ o.kind = .provision
  program : o.kind = .program → 1 ≤ programLength o.params ∧ o.data.length ≤ 256
  bound : o.kind ∈ claimBoundKinds → ∃ c ∈ o.claim, ∃ cl ∈ s.claims[c], cl.holder = p ∧ cl.state = .held ∧ o.vol = some cl.vol

/-- One change within a frame or after an event that needs no room. It starts no operation and ends none. -/
inductive Move : State → State → Prop
  | outcome (s : State) (p : Port) (o : FrameOutcome) : Move s (s.setOutcome p o)
  | select (s : State) (p : Port) (b : Bool) (quiet : s.serves p = false ∨ s.hpi[p].frame = none) : Move s (s.setSelect p b)
  | openFrame (s : State) (p : Port) (serves : s.serves p = true) : Move s (s.openFrame p)
  | receive (s : State) (p : Port) (wire : List Byte) (n : Nat) : Move s (s.receive p wire n)
  | closeFrame (s : State) (p : Port) (out : List Byte) : Move s (s.closeFrame p out)
  | pop (s : State) (p : Port) (quiet : s.hpi[p].frame = none) : Move s (s.popResponse p)
  | claimFields (s : State) (c : ClaimIx) (f : Claim → Claim) (same : ∀ cl, (f cl).identity = cl.identity) : Move s (s.onClaim c f)
  | suspend (s : State) (within : ∀ e ∈ s.engine, e.suspends < e.suspendBound) :
    Move s (s.onFlight (fun e => { e with suspends := e.suspends + 1 }))
  | openView (s : State) (p : Port) (h : Handle) (v : Vol) (x : Volume) (sl : Slot) (used : s.vols[v] = some x)
    (stays : x.deleting = false) (active : x.slotIn .active = some sl) :
    Move s (s.setView p h (some { vol := v, slot := sl, gen := (x.slot sl).gen, len := (x.slot sl).len }))
  | closeView (s : State) (p : Port) (h : Handle) : Move s (s.setView p h none)
  | withdraw (s : State) (r : Request) (p : Port) (w : Waiter) (waits : w ∈ s.waits) (own : w.port = p) :
    Move s (withdraw r p w s)
  | revoke (s : State) (c : ClaimIx) (n : Notice) (cl : Claim) (entry : s.claims[c] = some cl) (held : cl.state = .held) :
    Move s (s.revoke c n)
  | grants (s : State) : Move s s.grantAll

/-- One answer or claim that a request is given room for (R163). -/
inductive Ask : State → State → Prop
  | answer (s : State) (p : Port) (r : Response) (room : s.room p 1) : Ask s (s.push p r)
  | claimNow (s : State) (r : Request) (p : Port) (v : Vol) (c : ClaimIx) (x : Volume) (room : s.room p 2)
    (used : s.vols[v] = some x) (stays : x.deleting = false) (unpinned : s.pinRefuses x = false) (unclaimed : s.claimOf v = none)
    (noWait : s.waitsFor p v = false) (free : s.freeClaim = some c) : Ask s (claimNow r p v c s)
  | claimWaits (s : State) (r : Request) (p : Port) (v : Vol) (x : Volume) (room : s.room p 3) (used : s.vols[v] = some x)
    (unpinned : s.pinRefuses x = false) (stranger : s.ownClaim p v = none) (noWait : s.waitsFor p v = false)
    (short : s.waits.length < Config.waitEntries) :
    Ask s ({ s with waits := s.waits ++ [({ port := p, vol := v, tag := r.tag } : Waiter)] }.answer p r .queued
      [byteOf (s.waits.countP (fun w : Waiter => w.vol == v))])

/-- An operation joins the FIFO of its port, whether the engine is busy or not (R86). -/
inductive Queue : State → State → Prop
  | queue (s : State) (p : Port) (o : Op) (room : s.room p 1) (short : s.fifos[p].length < Config.fifoEntries)
    (begun : s.mode ≠ .starting) (fits : s.Queueable p o) : Queue s (s.setFifo p (s.fifos[p] ++ [o]))

/-- An operation is picked by an idle engine and enters its first phase, or completes at once (R90 to R93). -/
inductive Work : State → State → Prop
  | runs (s t u : State) (o : Op) (idle : s.engine = none) (begun : s.mode ≠ .starting) (picked : s.takePick = some (o, t))
    (starts : startOp o t = .runs u) : Work s u
  | ends (s t u : State) (o : Op) (st : Status) (body : List Byte) (idle : s.engine = none) (begun : s.mode ≠ .starting)
    (picked : s.takePick = some (o, t)) (starts : startOp o t = .ends st body u) : Work s (u.finish st body)

/-- What the completion of an entry of a kind adds to R114: waiters and claims that the change reaches, and the staging map. -/
def entryEffect : Kind → InFlight → State → State
  | .deleteVolume => forVolume afterDelete
  | .setAccess => forVolume afterAccess
  | .pin => forVolume afterPin
  | .beginStage => afterStage
  | .commit => afterCommit
  | _ => noMore

/-- The part after the failed program of a record at the append point: the position is passed over and counted (R115). -/
def State.passedOver (s : State) (j : Journal) : State :=
  { s with store := s.store.spoilPosition j.sector j.append
           journal := some { j with append := j.append + 1 }
           skipped := countSkip s.skipped }

/-- The part after the failed program of an entry in the own sector of a COMPACT or a FORMAT (R115). -/
def State.ownPassedOver (s : State) (sector : JSector) (o : OwnSector) : State :=
  { s with store := s.store.spoilPosition sector o.pos, skipped := countSkip s.skipped }

/-- A PINEN that has just been asserted, its waiters removed (R141). -/
def State.pinenUp (s : State) : State :=
  let s1 := { s with pinen := true }
  s1.removeWaiters s1.waiterPinned .pinned

/-- A port that has just been reset, but for its claims (R171). -/
def State.portCleared (s : State) (p : Port) : State :=
  let s1 := (((s.setHpi p (Hpi.cleared true s.hpi[p].sel)).closeViews p).dropFifo p).markDiscard p
  { s1 with waits := s1.waits.filter (fun w => w.port != p) }

/-- A record that is lost after its last try, before any grant that it makes possible (R17, R115). -/
def State.recordLost (s : State) (e : InFlight) (j : Journal) : State :=
  (clearDeleting e { s.passedOver j with mode := .degraded }).finish .arrayFault []

/-- The part right after a power-on (R121, R174). -/
def State.poweredOn (s : State) : State :=
  let t := (s.abort .during).clearVolatile
  { t with powered := true, skipped := 0, store := t.store.powerOn }

/-- One event of the part other than a power-on, before the arbiter picks again. The flag tells the events that leave a busy engine busy and an idle one
without work. -/
inductive Event (s : State) : Bool → State → Prop
  | finished (st : Status) (body : List Byte) : Event s false (s.finish st body)
  | eraseEnds (e : InFlight) (n i : Nat) (m : MapEntry) (store : Store) (st : Status) (body : List Byte)
    (busy : s.engine = some e) (kind : e.op.kind = .erase) (phase : e.phase = .erasing n) (inside : n < Config.sectors)
    (worked : store = s.store.eraseSector n ∨ store = s.store.spoilSector n) :
    Event s false (({ s with store := store }.setMapEntry e.op.claim i m).finish st body)
  | programEnds (e : InFlight) (n pg i : Nat) (m : MapEntry) (store : Store) (st : Status) (body : List Byte)
    (busy : s.engine = some e) (kind : e.op.kind = .program) (phase : e.phase = .programming n pg)
    (inside : pageBase n pg + e.op.data.length ≤ Config.arrayBytes)
    (worked : store = s.store.program (pageBase n pg) e.op.data ∨ store = s.store.spoilPage n pg) :
    Event s false (({ s with store := store }.setMapEntry e.op.claim i m).finish st body)
  | verified (e : InFlight) (v : Vol) (x : Volume) (sl : Slot) (len crc : Word) (t : State) (busy : s.engine = some e)
    (kind : e.op.kind = .commit) (phase : e.phase = .verifying) (staged : s.stagedBy e = some (v, x, sl))
    (length : len = BitVec.ofNat 32 (commitLength e.op.params))
    (begins : beginRecord (.commit (volByte v) (slotCode sl) (BitVec.ofNat 32 (x.genCounter + 1)) len crc) s = .runs t) :
    Event s true t
  | entry (k : Kind) (e : InFlight) (en : JEntry) (j : Journal) (st : Status) (body : List Byte)
    (under : s.recordUnder k = some (e, en, j)) (inside : j.append < Config.positions) :
    Event s false ((entryEffect k e (s.journalled en j)).finish st body)
  | retried (e : InFlight) (js : JSector) (j : Journal) (busy : s.engine = some e) (phase : e.phase = .journaling js)
    (own : e.own = none) (journal : s.journal = some j) (tries : e.tries + 1 < Config.maxTries)
    (inside : j.append + 1 < Config.positions) : Event s true (s.passedOver j).countTry
  | lost (e : InFlight) (js : JSector) (j : Journal) (busy : s.engine = some e) (phase : e.phase = .journaling js)
    (own : e.own = none) (journal : s.journal = some j) (inside : j.append < Config.positions) :
    Event s false (s.recordLost e j)
  | beginLost (e : InFlight) (busy : s.engine = some e) (kind : e.op.kind = .commit) (st : Status) (body : List Byte) :
    Event s false ({ s with mode := .degraded }.finish st body)
  | ownRetried (e : InFlight) (js : JSector) (o : OwnSector) (busy : s.engine = some e) (phase : e.phase = .journaling js)
    (own : e.own = some o) (tries : e.tries + 1 < Config.maxTries) (inside : o.pos + 1 < Config.positions) :
    Event s true ((s.ownPassedOver js o).onFlight
      (fun f => { f with tries := f.tries + 1, own := some { o with pos := o.pos + 1 } }))
  | ownLost (e : InFlight) (js : JSector) (o : OwnSector) (m : Mode) (st : Status) (body : List Byte) (busy : s.engine = some e)
    (phase : e.phase = .journaling js) (own : e.own = some o) (inside : o.pos < Config.positions)
    (mode : m = if e.op.kind = .compact then .degraded else s.mode) :
    Event s false ({ s.ownPassedOver js o with mode := m }.finish st body)
  | compactErased (e : InFlight) (j : Journal) (n : Nat) (busy : s.engine = some e) (kind : e.op.kind = .compact)
    (journal : s.journal = some j) (phase : e.phase = .erasing n) :
    Event s true ({ s with store := s.store.eraseSector n }.beginOwn j.sector.other (nextEpoch j.epoch) (snapshotItems s.vols))
  | compactEraseFails (e : InFlight) (n : Nat) (st : Status) (body : List Byte) (busy : s.engine = some e)
    (kind : e.op.kind = .compact) (phase : e.phase = .erasing n) :
    Event s false ({ s with store := s.store.spoilSector n, mode := .degraded }.finish st body)
  | ownAdvances (e : InFlight) (js : JSector) (en : JEntry) (o : OwnSector) (item : SnapItem) (rest : List SnapItem)
    (busy : s.engine = some e) (kind : e.op.kind = .compact ∨ e.op.kind = .format) (phase : e.phase = .journaling js)
    (entry : e.entry = some en) (own : e.own = some o) (todo : o.todo = item :: rest) (inside : o.pos < Config.positions) :
    Event s true (ownAdvances js en o item rest s)
  | switched (e : InFlight) (js : JSector) (en : JEntry) (o : OwnSector) (m : Mode) (st : Status) (body : List Byte)
    (busy : s.engine = some e) (kind : e.op.kind = .compact ∧ m = s.mode ∨ e.op.kind = .format ∧ m = .normal)
    (phase : e.phase = .journaling js) (entry : e.entry = some en) (own : e.own = some o) (fin : isSnapEnd en.content = true)
    (inside : o.pos < Config.positions) : Event s false ({ ownSwitches js en o s with mode := m }.finish st body)
  | formatErased (e : InFlight) (n : Nat) (busy : s.engine = some e) (kind : e.op.kind = .format) (phase : e.phase = .erasing n) :
    Event s true (formatErased n s)
  | formatEraseFails (e : InFlight) (n : Nat) (st : Status) (body : List Byte) (busy : s.engine = some e)
    (kind : e.op.kind = .format) (phase : e.phase = .erasing n) :
    Event s false ({ s with store := s.store.spoilSector n }.finish st body)
  | rowWritten (e : InFlight) (r : Row) (pv : ProvState) (st : Status) (body : List Byte) (busy : s.engine = some e)
    (kind : e.op.kind = .provision) (phase : e.phase = .rowWriting) : Event s false ((s.setRow r pv).finish st body)
  | pinenRises : Event s true ((List.finRange 32).foldl State.revokeIfPinned s.pinenUp)
  | pinenFalls : Event s true { s with pinen := false }
  | portCleared (p : Port) : Event s true (s.portCleared p)
  | portServes (p : Port) : Event s true (s.setHpi p { s.hpi[p] with rst := false })
  | resetRises (cut : Cut) : Event s true { (s.abort cut).clearVolatile with resetLine := true }
  | resetFalls (asserted : s.resetLine = true) : Event s true { s with resetLine := false, skipped := 0 }
  | powerFalls (cut : Cut) : Event s true { (s.abort cut).clearVolatile with powered := false }
  | unformatted (powered : s.powered = true) (line : s.resetLine = false) (starting : s.mode = .starting)
    (unusable : replay s.store = none) : Event s true
      { s.deriveRow.emptyClaims with vols := Vector.replicate 32 none, journal := none, skipped := 0, mode := .unformatted }
  | replayed (r : Replayed) (powered : s.powered = true) (line : s.resetLine = false) (starting : s.mode = .starting)
    (usable : replay s.store = some r) : Event s false
      { s.deriveRow.emptyClaims with vols := r.dir, journal := some r.journal, skipped := r.skipped, mode := .normal
        }.compactionCheck

/-- The engine has nothing to pick: it is busy, or start-up is under way, or no work waits. -/
def State.settled (s : State) : Prop := s.engine.isSome = true ∨ s.mode = .starting ∨ s.work = 0

/-- The states that a frame reaches from `s` before any operation is queued. -/
inductive Framed (s : State) : State → Prop
  | refl : Framed s s
  | move {t u : State} (h : Framed s t) (m : Move t u) : Framed s u
  | ask {t u : State} (h : Framed s t) (a : Ask t u) : Framed s u

/-- The states that a command reaches from `s`: by a frame or by one event, then by moves and picks. The flag tells those in which
the arbiter has picked again wherever it had to. -/
inductive Reaches (s : State) : Bool → State → Prop
  | framed {t : State} (h : Framed s t) : Reaches s true t
  | queue {t u : State} (h : Framed s t) (q : Queue t u) : Reaches s false u
  | event {b : Bool} {t : State} (h : Event s b t) : Reaches s b t
  | move {b : Bool} {t u : State} (h : Reaches s b t) (m : Move t u) : Reaches s b u
  | work {b : Bool} {t u : State} (h : Reaches s b t) (w : Work t u) : Reaches s false u
  | settle {b : Bool} {t : State} (h : Reaches s b t) (picked : t.settled) : Reaches s true t

theorem Reaches.refl {s : State} : Reaches s true s := .framed .refl

/-- A law that moves and answers keep holds throughout a frame. -/
theorem Framed.keeps {s t : State} {P : State → Prop} (h : Framed s t) (start : P s) (move : ∀ u w, P u → Move u w → P w)
    (ask : ∀ u w, P u → Ask u w → P w) : P t := by
  induction h with
  | refl => exact start
  | move _ m ih => exact move _ _ ih m
  | ask _ a ih => exact ask _ _ ih a

/-- A law that holds after each frame and each event, and that moves and picks keep, is kept. -/
theorem Reaches.keepsFrom {s t : State} {b : Bool} {P : State → Prop} (h : Reaches s b t) (framed : ∀ u, Framed s u → P u)
    (queue : ∀ u w, Framed s u → Queue u w → P w) (event : ∀ b u, Event s b u → P u) (move : ∀ u w, P u → Move u w → P w)
    (work : ∀ u w, P u → Work u w → P w) : P t := by
  induction h with
  | framed f => exact framed _ f
  | queue f q => exact queue _ _ f q
  | event e => exact event _ _ e
  | move _ m ih => exact move _ _ ih m
  | work _ w ih => exact work _ _ ih w
  | settle _ _ ih => exact ih

/-- A law that one event and each step of a frame and of the arbiter keep, is kept. -/
theorem Reaches.keeps {s t : State} {b : Bool} {P : State → Prop} (h : Reaches s b t) (start : P s)
    (event : ∀ b u, Event s b u → P u) (move : ∀ u w, P u → Move u w → P w) (ask : ∀ u w, P u → Ask u w → P w)
    (queue : ∀ u w, P u → Queue u w → P w) (work : ∀ u w, P u → Work u w → P w) : P t :=
  h.keepsFrom (fun _ f => f.keeps start move ask) (fun u w f q => queue u w (f.keeps start move ask) q) event move work

end Sys2Proof.Machine
end

section
/-! What the start of an operation comes to, with the checks that it has passed (R93), and what a pick takes (R90, R91). -/

namespace Sys2Proof.Machine

/-- The part in which the operation in flight has begun a record in the current sector (R114). -/
def State.begun (s : State) (j : Journal) (r : JRecord) : State :=
  s.onFlight (fun e => { e with
    phase := .journaling j.sector, entry := some { seq := BitVec.ofNat 32 j.seq, content := r }, tries := 0 })

/-- A record begins exactly where its first position lies in the current sector (R115). -/
theorem beginRecord_runs {r : JRecord} {s t : State} (h : beginRecord r s = .runs t) :
    ∃ j, s.journal = some j ∧ j.append < Config.positions ∧ t = s.begun j r := by
  unfold beginRecord at h
  split at h
  · cases h
  · rename_i j journal
    split at h
    · rename_i inside
      cases h
      exact ⟨j, journal, inside, rfl⟩
    · cases h

theorem beginRecord_ends {r : JRecord} {s t : State} {st : Status} {body : List Byte} (h : beginRecord r s = .ends st body t) :
    t = { s with mode := .degraded } := by
  rcases beginRecord_cases s r with ⟨e, runs⟩ | ends
  · rw [runs] at h; cases h
  · rw [ends] at h; cases h; rfl

/-- A start that enters the first phase of its operation, by kind, with the checks of the kind (R93). -/
inductive Begun (o : Op) (s : State) : State → Prop
  | create (v : Vol) (a b : Nat) (j : Journal) (kind : o.kind = .createVolume) (vol : o.vol = some v) (unused : s.vols[v] = none)
    (place : place s.vols (createSize o.params) = some (a, b)) (journal : s.journal = some j)
    (inside : j.append < Config.positions) : Begun o s (s.begun j (.create (volByte v) (createLabel o.params)
      (byteOf (createSize o.params)) (BitVec.ofNat 16 a) (BitVec.ofNat 16 b) (createReaders o.params) (createWriters o.params)))
  | delete (v : Vol) (x : Volume) (j : Journal) (kind : o.kind = .deleteVolume) (vol : o.vol = some v) (used : s.vols[v] = some x)
    (unclaimed : s.claimOf v = none) (unseenA : s.viewCount v .a = 0) (unseenB : s.viewCount v .b = 0)
    (journal : s.journal = some j) (inside : j.append < Config.positions) :
    Begun o s ((s.begun j (.delete (volByte v))).onVol v (fun y => { y with deleting := true }))
  | access (v : Vol) (x : Volume) (j : Journal) (rd wr : Byte) (kind : o.kind = .setAccess) (vol : o.vol = some v)
    (used : s.vols[v] = some x) (journal : s.journal = some j) (inside : j.append < Config.positions) :
    Begun o s (s.begun j (.access (volByte v) rd wr))
  | pin (v : Vol) (x : Volume) (j : Journal) (kind : o.kind = .pin) (vol : o.vol = some v) (used : s.vols[v] = some x)
    (journal : s.journal = some j) (inside : j.append < Config.positions) : Begun o s (s.begun j (.pin (volByte v)))
  | unpin (v : Vol) (x : Volume) (j : Journal) (kind : o.kind = .unpin) (vol : o.vol = some v) (used : s.vols[v] = some x)
    (journal : s.journal = some j) (inside : j.append < Config.positions) : Begun o s (s.begun j (.unpin (volByte v)))
  | stage (v : Vol) (x : Volume) (j : Journal) (kind : o.kind = .beginStage) (vol : o.vol = some v) (used : s.vols[v] = some x)
    (noStaging : x.slotIn .staging = none) (unseen : s.viewCount v x.target = 0)
    (journal : s.journal = some j) (inside : j.append < Config.positions) :
    Begun o s (s.begun j (.stage (volByte v) (slotCode x.target)))
  | rollback (v : Vol) (x : Volume) (j : Journal) (kind : o.kind = .rollback) (vol : o.vol = some v) (used : s.vols[v] = some x)
    (noStaging : x.slotIn .staging = none) (previous : (x.slotIn .previous).isSome = true)
    (journal : s.journal = some j) (inside : j.append < Config.positions) : Begun o s (s.begun j (.rollback (volByte v)))
  | erase (v : Vol) (x : Volume) (sl : Slot) (kind : o.kind = .erase) (vol : o.vol = some v) (used : s.vols[v] = some x)
    (staging : x.slotIn .staging = some sl) (inside : eraseSectorIx o.params < x.size) :
    Begun o s (s.enter (.erasing (x.base sl + eraseSectorIx o.params)))
  | program (v : Vol) (x : Volume) (sl : Slot) (kind : o.kind = .program) (vol : o.vol = some v) (used : s.vols[v] = some x)
    (staging : x.slotIn .staging = some sl) (inside : programOffset o.params + programLength o.params ≤ x.slotBytes) :
    Begun o s (s.enter (.programming (x.base sl + programSectorIx o.params) (programPage o.params)))
  | commit (v : Vol) (x : Volume) (kind : o.kind = .commit) (vol : o.vol = some v) (used : s.vols[v] = some x)
    (staging : (x.slotIn .staging).isSome = true) (counter : x.genCounter ≠ Config.wordMax) : Begun o s (s.enter .verifying)
  | format (kind : o.kind = .format) (mode : s.mode = .unformatted) : Begun o s (s.enter (.erasing (jsectorNumber .j0)))
  | provision (kind : o.kind = .provision) (blank : s.prov = .blank) : Begun o s (s.enter .rowWriting)
  | compact (j : Journal) (kind : o.kind = .compact) (mode : s.mode = .normal) (journal : s.journal = some j) :
    Begun o s (s.enter (.erasing (jsectorNumber j.sector.other)))

/-- What a start comes to: it enters a phase with its checks passed, or completes at once and changes the mode at most (R93,
R115). -/
def StartSound (o : Op) (s : State) : Started → Prop
  | .ends _ _ t => t = s ∨ t = { s with mode := .degraded }
  | .runs t => Begun o s t

section
variable {o : Op} {s : State}

/-- A start whose last check has passed begins its record, or loses it at once (R114, R115). -/
theorem StartSound.ofRecord {r : JRecord}
    (begins : ∀ j, s.journal = some j → j.append < Config.positions → Begun o s (s.begun j r)) :
    StartSound o s (beginRecord r s) := by
  cases h : beginRecord r s with
  | ends st body t => exact .inr (beginRecord_ends h)
  | runs t =>
    obtain ⟨j, journal, inside, rfl⟩ := beginRecord_runs h
    exact begins j journal inside

variable {v : Vol} (vol : o.vol = some v)
include vol

theorem startCreate_sound (kind : o.kind = .createVolume) : StartSound o s (startCreate o v s) := by
  unfold startCreate
  split
  · exact .inl rfl
  · rename_i unused
    split
    · exact .inl rfl
    · rename_i a b placed
      exact .ofRecord fun j journal inside => .create v a b j kind vol (by simpa using unused) placed journal inside

theorem startDelete_sound (kind : o.kind = .deleteVolume) : StartSound o s (startDelete v s) := by
  unfold startDelete
  split
  · exact .inl rfl
  · rename_i x used
    split
    · exact .inl rfl
    · split
      · exact .inl rfl
      · rename_i unseen
        simp only [not_or, Bool.not_eq_true, Option.isSome_eq_false_iff, Option.isNone_iff_eq_none, Nat.not_lt, Nat.le_zero] at unseen
        obtain ⟨unclaimed, unseenA, unseenB⟩ := unseen
        split
        · rename_i ends
          exact .inr (beginRecord_ends ends)
        · rename_i runs
          obtain ⟨j, journal, inside, rfl⟩ := beginRecord_runs runs
          exact .delete v x j kind vol used unclaimed unseenA unseenB journal inside

theorem startAccess_sound (kind : o.kind = .setAccess) : StartSound o s (startAccess o v s) := by
  unfold startAccess
  split
  · exact .inl rfl
  · rename_i x used
    split
    · exact .inl rfl
    · exact .ofRecord fun j journal inside => .access v x j _ _ kind vol used journal inside

theorem startPin_sound (kind : o.kind = .pin) : StartSound o s (startPin v s) := by
  unfold startPin
  split
  · exact .inl rfl
  · rename_i used
    obtain ⟨x, used⟩ := Option.ne_none_iff_exists'.mp (by simpa using used)
    exact .ofRecord fun j journal inside => .pin v x j kind vol used journal inside

theorem startUnpin_sound (kind : o.kind = .unpin) : StartSound o s (startUnpin v s) := by
  unfold startUnpin
  split
  · exact .inl rfl
  · rename_i x used
    split
    · exact .inl rfl
    · exact .ofRecord fun j journal inside => .unpin v x j kind vol used journal inside

theorem startStage_sound (kind : o.kind = .beginStage) : StartSound o s (startStage v s) := by
  unfold startStage
  split
  · exact .inl rfl
  · rename_i x used
    split
    · exact .inl rfl
    · rename_i noStaging
      split
      · exact .inl rfl
      · rename_i unseen
        exact .ofRecord fun j journal inside =>
          .stage v x j kind vol used (by simpa using noStaging) (by omega) journal inside

theorem startRollback_sound (kind : o.kind = .rollback) : StartSound o s (startRollback v s) := by
  unfold startRollback
  split
  · exact .inl rfl
  · rename_i x used
    split
    · exact .inl rfl
    · rename_i noStaging
      split
      · exact .inl rfl
      · rename_i previous
        exact .ofRecord fun j journal inside =>
          .rollback v x j kind vol used (by simpa using noStaging) (by simpa [Option.isSome_iff_ne_none] using previous) journal inside

theorem startErase_sound (kind : o.kind = .erase) : StartSound o s (startErase o v s) := by
  unfold startErase
  split
  · exact .inl rfl
  · rename_i x used
    split
    · exact .inl rfl
    · rename_i sl staging
      split
      · exact .inl rfl
      · rename_i inside
        exact .erase v x sl kind vol used staging (by omega)

theorem startProgram_sound (kind : o.kind = .program) : StartSound o s (startProgram o v s) := by
  unfold startProgram
  split
  · exact .inl rfl
  · rename_i x used
    split
    · exact .inl rfl
    · rename_i sl staging
      dsimp only
      split
      · exact .inl rfl
      · rename_i inside
        split
        · exact .inl rfl
        · split
          · exact .inl rfl
          · exact .program v x sl kind vol used staging (by omega)

theorem startCommit_sound (kind : o.kind = .commit) : StartSound o s (startCommit o v s) := by
  unfold startCommit
  split
  · exact .inl rfl
  · rename_i x used
    split
    · exact .inl rfl
    · rename_i staging
      split
      · exact .inl rfl
      · split
        · exact .inl rfl
        · rename_i counter
          split
          · exact .inl rfl
          · exact .commit v x kind vol used (by simpa [Option.isSome_iff_ne_none] using staging) counter

end

section
variable (o : Op) (s : State)

theorem startCompact_sound (kind : o.kind = .compact) : StartSound o s (startCompact s) := by
  unfold startCompact
  split
  · rename_i j journal
    split
    · rename_i mode
      exact .compact j kind mode journal
    · exact .inl rfl
  · exact .inl rfl

theorem startKind_sound : StartSound o s (startKind o s) := by
  unfold startKind
  split
  · exact startCreate_sound (by assumption) (by assumption)
  · exact startDelete_sound (by assumption) (by assumption)
  · exact startAccess_sound (by assumption) (by assumption)
  · exact startPin_sound (by assumption) (by assumption)
  · exact startUnpin_sound (by assumption) (by assumption)
  · exact startStage_sound (by assumption) (by assumption)
  · exact startErase_sound (by assumption) (by assumption)
  · exact startProgram_sound (by assumption) (by assumption)
  · exact startCommit_sound (by assumption) (by assumption)
  · exact startRollback_sound (by assumption) (by assumption)
  · unfold startFormat
    split
    · exact .format (by assumption) (by assumption)
    · exact .inl rfl
  · unfold startProvision
    split
    · exact .provision (by assumption) (by assumption)
    · exact .inl rfl
  · exact startCompact_sound o s (by assumption)
  · exact .inl rfl

theorem startOp_sound : StartSound o s (startOp o s) := by
  unfold startOp
  split
  · exact .inl rfl
  · split
    · exact .inl rfl
    · exact startKind_sound o s

variable {o s}

theorem startOp_runs {t : State} (h : startOp o s = .runs t) : Begun o s t := by
  have sound := startOp_sound o s
  rwa [h] at sound

/-- An operation that runs is bound to a HELD claim or to none (R61). -/
theorem startOp_runs_claimHeld {t : State} (h : startOp o s = .runs t) : s.claimHeld o.claim = true := by
  unfold startOp at h
  split at h
  · cases h
  · split at h
    · cases h
    · rename_i held
      simpa using held

theorem startOp_ends {t : State} {st : Status} {body : List Byte} (h : startOp o s = .ends st body t) :
    t = s ∨ t = { s with mode := .degraded } := by
  have sound := startOp_sound o s
  rwa [h] at sound

end

/-! ### The pick -/

section
variable {s t : State} {o : Op}

/-- What a pick takes: the COMPACT of the compaction slot, or the head of a FIFO (R91). -/
theorem State.takePick_cases (h : s.takePick = some (o, t)) :
    (s.compactSlot = true ∧ o = compactOp
      ∧ t = { s with compactSlot := false, engine := some (flight none compactOp s.values) })
    ∨ (s.compactSlot = false ∧ ∃ (p : Port) (rest : List Op), s.fifos[p] = o :: rest
      ∧ t = { s with fifos := s.fifos.set p rest, rr := p, engine := some (flight (some p) o s.values) }) := by
  unfold State.takePick at h
  split at h
  · rename_i slot
    cases h
    exact .inl ⟨slot, rfl, rfl⟩
  · rename_i slot
    split at h
    · cases h
    · rename_i p _
      split at h
      · cases h
      · rename_i op rest fifo
        cases h
        exact .inr ⟨by simpa using slot, p, rest, fifo, rfl⟩

/-- A port's operation is counted among the work. -/
theorem State.work_setFifo (p : Port) (ops : List Op) :
    (s.setFifo p ops).work + s.fifos[p].length = s.work + ops.length := by
  have slot : (if (s.setFifo p ops).compactSlot then 1 else 0) = if s.compactSlot then 1 else 0 := rfl
  unfold State.work
  rw [slot, State.setFifo_fifos]
  match p with
  | 0 => simp; omega
  | 1 => simp; omega
  | 2 => simp; omega
  | 3 => simp; omega

/-- Each pick takes one operation off the work (R93). -/
theorem State.takePick_work (h : s.takePick = some (o, t)) : t.work + 1 = s.work := by
  rcases State.takePick_cases h with ⟨slot, -, rfl⟩ | ⟨-, p, rest, fifo, rfl⟩
  · simp [State.work, slot]
  · have moved := s.work_setFifo p rest
    rw [fifo, List.length_cons] at moved
    change (s.setFifo p rest).work + 1 = s.work
    omega

/-- Nothing is picked only where no work waits (R90). -/
theorem State.takePick_none (h : s.takePick = none) : s.work = 0 := by
  unfold State.takePick at h
  split at h
  · cases h
  · rename_i slot
    split at h
    · rename_i none
      have empty : ∀ p : Port, s.fifos[p] = [] := fun p => by
        have all : ∀ r q : Port, q ∈ [r + 1, r + 2, r + 3, r] := by decide
        simpa using List.find?_eq_none.mp none p (all s.rr p)
      have e0 := empty 0; have e1 := empty 1; have e2 := empty 2; have e3 := empty 3
      simp at e0 e1 e2 e3
      simp [State.work, slot, e0, e1, e2, e3]
    · rename_i p found
      split at h
      · rename_i fifo
        have := List.find?_some found
        simp [fifo] at this
      · cases h

theorem Begun.busy {u : State} (h : Begun o s u) : u.engine.isSome = s.engine.isSome := by
  cases h <;> simp [State.begun, State.onVol]

/-- An operation just picked stands in the engine as R92 says. -/
theorem State.takePick_engine (h : s.takePick = some (o, t)) : ∃ p : Option Port, t.engine = some (flight p o s.values) := by
  rcases State.takePick_cases h with ⟨-, rfl, rfl⟩ | ⟨-, p, rest, -, rfl⟩
  · exact ⟨none, rfl⟩
  · exact ⟨some p, rfl⟩

end

section
variable {s t : State} {b : Bool}

/-- The picks of one moment: each is a step, and they go on until the engine is busy or no work is left (R90 to R93). -/
theorem Reaches.pickUpTo (n : Nat) (h : Reaches s b t) (idle : t.engine = none) (begun : t.mode ≠ .starting) (all : t.work ≤ n) :
    Reaches s true (pickUpTo n t) := by
  induction n generalizing t b with
  | zero => exact h.settle (.inr (.inr (Nat.le_zero.mp all)))
  | succ n ih =>
    unfold Machine.pickUpTo
    cases picked : t.takePick with
    | none => exact h.settle (.inr (.inr (State.takePick_none picked)))
    | some q =>
      obtain ⟨o, u⟩ := q
      dsimp only
      cases starts : startOp o u with
      | runs w =>
        obtain ⟨p, busy⟩ := State.takePick_engine picked
        refine (h.work (.runs t u w o idle begun picked starts)).settle (.inl ?_)
        rw [(startOp_runs starts).busy, busy, Option.isSome_some]
      | ends st body w =>
        have ended := h.work (.ends t u w o st body idle begun picked starts)
        have taken := State.takePick_work picked
        obtain ⟨fs, c, r, e, frame⟩ := t.takePick_frame o u picked
        obtain ⟨d, ws, cs, q, finished, -⟩ := w.finish_frame st body
        have work : w.work = u.work := by rcases startOp_ends starts with rfl | rfl <;> rfl
        refine ih ended (by rw [finished]) ?_ ?_
        · rw [finished]
          rcases startOp_ends starts with rfl | rfl
          · rw [frame]; exact begun
          · simp
        · rw [finished]
          change w.work ≤ n
          omega

theorem Reaches.pick (h : Reaches s b t) : Reaches s true t.pick := by
  unfold State.pick
  split
  · rename_i left
    exact h.settle (left.elim .inl fun starting => .inr (.inl starting))
  · rename_i left
    rw [not_or] at left
    exact h.pickUpTo t.work (by simpa using left.1) left.2 le_rfl

end

end Sys2Proof.Machine
end

section
/-! Every frame is a chain of moves and picks (R156 to R164): what the taking of a request comes to, and the moments of a frame. -/

namespace Sys2Proof.Machine

/-! ### A claim whose identity stays -/

section
variable (s : State) (c : ClaimIx) (f : Claim → Claim) (same : ∀ cl, (f cl).identity = cl.identity)

theorem State.onClaim_get (d : ClaimIx) : (s.onClaim c f).claims[d] = if c = d then (s.claims[d]).map f else s.claims[d] := by
  by_cases e : c = d
  · subst e
    simp [State.onClaim, State.setClaim]
  · have : c.val ≠ d.val := fun h => e (Fin.ext h)
    simp [State.onClaim, State.setClaim, e, Vector.getElem_set_ne, this]

include same

theorem State.claimNames_onClaim (v : Vol) (d : ClaimIx) : (s.onClaim c f).claimNames v d = s.claimNames v d := by
  unfold State.claimNames
  by_cases e : c = d
  · rw [s.onClaim_get c f d, if_pos e]
    cases s.claims[d] with
    | none => rfl
    | some cl => simp [(Prod.mk.inj (same cl)).1]
  · rw [s.onClaim_get c f d, if_neg e]

theorem State.heldBy_onClaim (p : Port) (d : ClaimIx) : (s.onClaim c f).heldBy p d = s.heldBy p d := by
  unfold State.heldBy
  by_cases e : c = d
  · rw [s.onClaim_get c f d, if_pos e]
    cases s.claims[d] with
    | none => rfl
    | some cl => simp [(Prod.mk.inj (Prod.mk.inj (same cl)).2).1, (Prod.mk.inj (Prod.mk.inj (same cl)).2).2]
  · rw [s.onClaim_get c f d, if_neg e]

theorem State.heldClaim_onClaim (p : Port) (v : Vol) : (s.onClaim c f).heldClaim p v = s.heldClaim p v := by
  simp only [State.heldClaim, s.claimNames_onClaim c f same, s.heldBy_onClaim c f same]

theorem State.reservations_onClaim (p : Port) : (s.onClaim c f).reservations p = s.reservations p := by
  have held : (s.onClaim c f).heldBy p = s.heldBy p := funext (s.heldBy_onClaim c f same p)
  simp only [State.reservations, held]
  rfl

theorem State.need_onClaim (k : Kind) (p : Port) (volume : Byte) (params : List Byte) :
    need k p volume params (s.onClaim c f) = need k p volume params s := by
  have standing : (s.onClaim c f).standing p volume = s.standing p volume := by
    simp only [State.standing, s.heldClaim_onClaim c f same]
    rfl
  cases k <;> simp only [need, standing]

omit same in
theorem State.unformattedLaw_of_onClaim (h : (s.onClaim c f).unformattedLaw) : s.unformattedLaw := by
  intro mode
  obtain ⟨vols, views, claims, rest⟩ := h mode
  refine ⟨vols, views, ?_, rest⟩
  apply Vector.ext
  intro i hi
  have entry := s.onClaim_get c f ⟨i, hi⟩
  rw [claims] at entry
  have empty : (Vector.replicate 4 none : Vector (Option Claim) 4)[(⟨i, hi⟩ : ClaimIx)] = none := by simp
  rw [empty] at entry
  have : s.claims[(⟨i, hi⟩ : ClaimIx)] = none := by
    split at entry
    · exact Option.map_eq_none_iff.mp entry.symm
    · exact entry.symm
  simpa using this

theorem State.room_onClaim {p : Port} {n : Nat} (room : s.room p n) : (s.onClaim c f).room p n := by
  intro law entries
  have entries : s.entryLaw := fun q => by
    have := entries q
    rw [s.reservations_onClaim c f same] at this
    exact this
  rw [s.reservations_onClaim c f same]
  exact room (s.unformattedLaw_of_onClaim c f law) entries

end

/-! ### Room -/

section
variable {s : State} {p : Port}

theorem State.room.le {m n : Nat} (h : s.room p n) (le : m ≤ n) : s.room p m := fun law entries => by
  have := h law entries
  omega

/-- A request that is not FULL finds room for what it needs (R163). -/
theorem room_of_not_full {r : Request} (h : isFull r p s = false) : s.room p (need r.kind p r.volume r.params s) := by
  intro _ entries
  have fits := entries p
  have free : ¬s.freeEntries p < need r.kind p r.volume r.params s := of_decide_eq_false (Bool.or_eq_false_iff.mp h).1
  unfold State.freeEntries at free
  omega

/-- A request needs an entry, but for a RELEASE without parameters from a port that holds the claim or waits for it (R165). -/
theorem one_le_need {r : Request} (h : r.kind = .release → s.standing p r.volume = false ∨ r.params ≠ []) :
    1 ≤ need r.kind p r.volume r.params s := by
  unfold need
  split
  · split <;> decide
  · rename_i release
    rcases h release with away | some
    · simp [away]
    · simp [some]
  all_goals exact le_rfl

/-- No port has a claim or a wait in UNFORMATTED (R130). -/
theorem standing_unformatted (law : s.unformattedLaw) (mode : s.mode = .unformatted) (b : Byte) : s.standing p b = false := by
  obtain ⟨-, -, claims, waits, -⟩ := law mode
  unfold State.standing
  split
  · rename_i v _
    have unclaimed : s.heldClaim p v = none :=
      (claimIxs_find_none _).mpr fun d => by simp [State.heldBy, claims]
    simp [unclaimed, State.waitsFor, waits]
  · rfl

end

/-! ### Requests -/

/-- What a command comes to, if it ends in a state. -/
def ReachedBy (s : State) : Res → Prop
  | .next t => Reaches s true t
  | .fault _ => True
  | .refused _ => False

/-- A request taken with room for what it needs, in a mode that allows it. -/
structure Taken (r : Request) (p : Port) (t : State) : Prop where
  room : t.room p (need r.kind p r.volume r.params t)
  short : isEngineKind r.kind = true → t.fifos[p].length < Config.fifoEntries
  begun : t.mode ≠ .starting

section
variable {s t : State} (h : Framed s t) {r : Request} {p : Port}

include h in
theorem Framed.answered (room : t.room p 1) (st : Status) (body : List Byte) : Framed s (t.answer p r st body) :=
  h.ask (.answer t p _ room)

include h in
theorem Framed.answer (room : t.room p 1) (st : Status) (body : List Byte) : Reaches s true (t.answer p r st body) :=
  .framed (h.answered room st body)

variable (taken : Taken r p t)

include taken in
theorem Taken.room_one (other : r.kind ≠ .release) : t.room p 1 := taken.room.le (one_le_need fun e => absurd e other)

include h taken

theorem Framed.enqueue (o : Op) (engine : isEngineKind r.kind = true) (fits : t.Queueable p o) : Reaches s true (t.enqueue p o) :=
  (Reaches.queue h (.queue t p o (taken.room_one fun e => by rw [e] at engine; cases engine) (taken.short engine) taken.begun fits)).pick

/-- An operation without a claim that the mode allows. -/
theorem Framed.enqueueFree (v : Option Vol) (engine : isEngineKind r.kind = true) (free : r.kind ∉ claimBoundKinds)
    (mode : t.mode = .unformatted → r.kind = .format ∨ r.kind = .provision) : Reaches s true (t.enqueue p (opOf r v none)) :=
  h.enqueue taken _ engine {
    unformatted := mode
    program := fun e => absurd (show r.kind ∈ claimBoundKinds by rw [show r.kind = .program from e]; decide) free
    bound := fun e => absurd e free }

theorem Framed.takeAdmin (kind : r.kind ∈ [Kind.createVolume, .deleteVolume, .setAccess, .pin, .unpin])
    (mode : t.mode ≠ .unformatted) : Reaches s true (takeAdmin r p t) := by
  have facts : r.kind ≠ .release ∧ isEngineKind r.kind = true ∧ r.kind ∉ claimBoundKinds := by
    revert kind; cases r.kind <;> decide
  obtain ⟨other, engine, free⟩ := facts
  have room := taken.room_one other
  unfold Machine.takeAdmin
  split
  · exact h.answer room ..
  · split
    · exact h.answer room ..
    · split
      · exact h.answer room ..
      · exact h.enqueueFree taken _ engine free fun m => absurd m mode

theorem Framed.takeFormat (kind : r.kind = .format) : Reaches s true (takeFormat r p t) := by
  unfold Machine.takeFormat
  split
  · exact h.answer (taken.room_one (by rw [kind]; decide)) ..
  · exact h.enqueueFree taken _ (by rw [kind]; rfl) (by rw [kind]; decide) fun _ => .inl kind

theorem Framed.takeProvision (kind : r.kind = .provision) : Reaches s true (takeProvision r p t) := by
  have room := taken.room_one (by rw [kind]; decide)
  unfold Machine.takeProvision
  split
  · exact h.answer room ..
  · split
    · exact h.answer room ..
    · exact h.enqueueFree taken _ (by rw [kind]; rfl) (by rw [kind]; decide) fun _ => .inr kind

/-- A staging request joins the FIFO and raises the pending count of its claim, whichever is done first (R39). -/
theorem Framed.takeStaging (kind : r.kind ∈ claimBoundKinds) (mode : t.mode ≠ .unformatted) :
    Reaches s true (takeStaging r p t) := by
  have facts : r.kind ≠ .release ∧ isEngineKind r.kind = true := by revert kind; cases r.kind <;> decide
  obtain ⟨other, engine⟩ := facts
  have room := taken.room_one other
  unfold Machine.takeStaging
  split
  · exact h.answer room ..
  · rename_i v _
    split
    · exact h.answer room ..
    · rename_i good
      split
      · exact h.answer room ..
      · rename_i c claim
        obtain ⟨cl, entry, onVolume, holder, held⟩ := State.heldClaim_some t p v c claim
        have fits : t.Queueable p (opOf r (some v) (some c)) := {
          unformatted := fun m => absurd m mode
          program := fun k => by
            have k : r.kind = .program := k
            have checked : badStaging .program r.params = false := by simpa [k] using good
            simp only [badStaging, badLength, Bool.or_eq_false_iff, decide_eq_false_iff_not, beq_eq_false_iff_ne, not_not] at checked
            obtain ⟨⟨-, some, short⟩, size⟩ := checked
            simp only [opOf, k, if_true, size]
            omega
          bound := fun _ => ⟨c, rfl, cl, entry, holder, held, by rw [onVolume]; rfl⟩ }
        have queued := Reaches.queue h (.queue t p _ room (taken.short engine) taken.begun fits)
        have bound := queued.move (.claimFields _ c (fun cl => { cl with pending := cl.pending + 1 }) fun _ => rfl)
        exact bound.pick

/-- A suspension is within the budget of the class of the phase (R101, R102). -/
theorem Framed.answerRead (kind : r.kind ≠ .release) (x : Resolved) : Reaches s true (answerRead r p x t) := by
  have room := taken.room_one kind
  unfold Machine.answerRead
  split
  · exact h.answer room ..
  · rename_i suspends
    have within : ∀ e ∈ t.engine, e.suspends < e.suspendBound := by
      intro e busy
      rw [planeCheck, show t.engine = some e from busy] at suspends
      cases phase : e.phase with
      | none | verifying | rowWriting => simp [phase] at suspends
      | journaling j => simp only [phase] at suspends; split at suspends <;> cases suspends
      | erasing n | programming n pg =>
        simp only [phase] at suspends
        split at suspends
        · cases suspends
        · split at suspends
          · simpa [InFlight.suspendBound, phase]
          · cases suspends
    exact .framed ((h.answered (r := r) room .data _).move (.suspend _ within))
  · exact h.answer room ..

theorem Framed.takeResolved (kind : r.kind ≠ .release) (res : Except Status Resolved) :
    Reaches s true (takeResolved res r p t) := by
  cases res with
  | error st => exact h.answer (taken.room_one kind) ..
  | ok x => exact h.answerRead taken kind x

theorem Framed.takeOpenView (kind : r.kind ≠ .release) : Reaches s true (takeOpenView r p t) := by
  have answered := fun st body => h.answered (r := r) (taken.room_one kind) st body
  unfold Machine.takeOpenView
  split
  · exact .framed (answered ..)
  · split
    · exact .framed (answered ..)
    · rename_i v _ _ x used
      split
      · exact .framed (answered ..)
      · rename_i stays
        split
        · exact .framed (answered ..)
        · split
          · exact .framed (answered ..)
          · rename_i sl active
            split
            · exact .framed (answered ..)
            · rename_i i _
              exact .framed ((answered .view _).move (.openView _ p i v x sl used (by simpa using stays) active))

theorem Framed.takeCloseView (kind : r.kind ≠ .release) : Reaches s true (takeCloseView r p t) := by
  have answered := fun st body => h.answered (r := r) (taken.room_one kind) st body
  unfold Machine.takeCloseView
  split
  · exact .framed (answered ..)
  · split
    · exact .framed (answered ..)
    · exact .framed ((answered .ok _).move (.closeView _ p _))

theorem Framed.takeQueryVolume (kind : r.kind ≠ .release) : Reaches s true (takeQueryVolume r p t) := by
  have room := taken.room_one kind
  unfold Machine.takeQueryVolume
  split
  · exact h.answer room ..
  · split <;> exact h.answer room ..

theorem Framed.takeRenew (kind : r.kind ≠ .release) : Reaches s true (takeRenew r p t) := by
  have room := taken.room_one kind
  unfold Machine.takeRenew
  split
  · exact h.answer room ..
  · split <;> exact h.answer room ..

omit taken in
/-- A CLAIM that passed the checks of R40 needs two entries, or three with wait (R41, R43, R165). -/
theorem Framed.claimChecked {v : Vol} {x : Volume} {wait : Bool} (room : t.room p (if wait then 3 else 2))
    (used : t.vols[v] = some x) (stays : x.deleting = false) (unpinned : t.pinRefuses x = false)
    (stranger : t.ownClaim p v = none) (noWait : t.waitsFor p v = false) : Reaches s true (claimChecked r p v wait t) := by
  have one : t.room p 1 := room.le (by split <;> decide)
  have waits : wait = true → Reaches s true (claimWaits r p v t) := fun flag => by
    unfold claimWaits
    split
    · exact h.answer one ..
    · exact .framed <| h.ask (.claimWaits t r p v x (by simpa [flag] using room) used unpinned stranger noWait (by omega))
  unfold Machine.claimChecked
  split
  · rename_i unclaimed
    split
    · rename_i c free
      exact .framed <| h.ask (.claimNow t r p v c x (room.le (by split <;> decide)) used stays unpinned unclaimed noWait free)
    · split
      · exact waits (by assumption)
      · exact h.answer one ..
  · split
    · exact waits (by assumption)
    · split <;> exact h.answer one ..

theorem Framed.takeClaim (kind : r.kind = .claim) : Reaches s true (takeClaim r p t) := by
  have answered := fun st body => h.answer (r := r) (taken.room_one (by rw [kind]; decide)) st body
  unfold Machine.takeClaim
  split
  · rename_i v wait _ flag
    have room : t.room p (if wait then 3 else 2) := by
      have room := taken.room
      simp only [kind, need] at room
      unfold claimWait at flag
      split at flag
      · rename_i zero
        cases flag
        simpa [zero] using room
      · rename_i other
        exact room.le (by rw [if_neg other]; split <;> decide)
    split
    · exact answered ..
    · rename_i x used
      split
      · exact answered ..
      · rename_i stays
        split
        · exact answered ..
        · split
          · exact answered ..
          · rename_i unpinned
            split
            · exact answered ..
            · exact answered ..
            · rename_i stranger
              split
              · exact answered ..
              · rename_i noWait
                exact h.claimChecked room used (by simpa using stays) (by simpa using unpinned) stranger (by simpa using noWait)
  · exact answered ..

theorem Framed.takeRelease : Reaches s true (takeRelease r p t) := by
  have answered : t.standing p r.volume = false → ∀ st body, Reaches s true (t.answer p r st body) := fun away st body =>
    h.answer (taken.room.le (one_le_need fun _ => .inl away)) st body
  unfold Machine.takeRelease
  split
  · rename_i unnamed
    exact answered (by simp [State.standing, unnamed]) ..
  · rename_i v named
    split
    · rename_i c claim
      obtain ⟨cl, entry, -, -, held⟩ := State.heldClaim_some t p v c claim
      exact .framed <| h.move (.revoke t c _ cl entry held)
    · rename_i claimless
      split
      · rename_i w found
        have own := List.find?_some found
        simp only [Bool.and_eq_true, beq_iff_eq] at own
        exact .framed <| h.move (.withdraw t r p w (List.mem_of_find?_eq_some found) own.1)
      · rename_i waitless
        refine answered ?_ ..
        have noWait : t.waitsFor p v = false := by
          simpa [State.waitsFor] using waitless
        simp [State.standing, named, claimless, noWait]

theorem Framed.takeKind (allowed : modeRefusal r.kind t.mode = none) : Reaches s true (takeKind r p t) := by
  have formatted : ∀ k, r.kind = k → k ≠ .queryDevice → k ≠ .provision → k ≠ .format → t.mode ≠ .unformatted := by
    intro k e h1 h2 h3 m
    rw [e, m] at allowed
    cases k <;> contradiction
  unfold Machine.takeKind
  cases kind : r.kind with
  | queryDevice => exact h.answer (taken.room_one (by rw [kind]; decide)) ..
  | queryVolume => exact h.takeQueryVolume taken (by rw [kind]; decide)
  | createVolume | deleteVolume | setAccess | pin | unpin =>
    exact h.takeAdmin taken (by rw [kind]; decide) (formatted _ kind (by decide) (by decide) (by decide))
  | format => exact h.takeFormat taken kind
  | provision => exact h.takeProvision taken kind
  | read | readStaged => exact h.takeResolved taken (by rw [kind]; decide) _
  | openView => exact h.takeOpenView taken (by rw [kind]; decide)
  | closeView => exact h.takeCloseView taken (by rw [kind]; decide)
  | claim => exact h.takeClaim taken kind
  | release => exact h.takeRelease taken
  | renew => exact h.takeRenew taken (by rw [kind]; decide)
  | beginStage | erase | program | commit | rollback =>
    exact h.takeStaging taken (by rw [kind]; decide) (formatted _ kind (by decide) (by decide) (by decide))
  | compact => exact .framed h

/-- R130, R164, R179. In UNFORMATTED a RELEASE is refused with room to spare: no port has a claim or waits there. -/
theorem Framed.takeRequest : Reaches s true (takeRequest r p t) := by
  unfold Machine.takeRequest
  split
  · rename_i st refused
    refine h.answer (fun law entries => ?_) ..
    refine taken.room.le (one_le_need fun release => .inl (standing_unformatted law ?_ _)) law entries
    rw [release] at refused
    cases mode : t.mode <;> rw [mode] at refused <;> first | rfl | cases refused
  · rename_i allowed
    split
    · rename_i bad
      refine h.answer (taken.room.le (one_le_need fun release => .inr ?_)) ..
      rintro empty
      simp [badCount, release, empty, paramSize] at bad
    · exact h.takeKind taken allowed

end

/-! ### The moments of a frame -/

section
variable {s t : State} (h : Framed s t) (r : Request) (p : Port) (f : Frame)
include h

/-- The reload of a lease changes no claim's identity, so a request that is not FULL is taken with its room (R51, R163). -/
theorem Framed.submitRequest : ReachedBy s (submitRequest r p t) := by
  unfold Machine.submitRequest
  split
  · exact Reaches.framed <| h.move (.outcome ..)
  · rename_i begun
    rw [not_or] at begun
    split
    · exact Reaches.framed <| h.move (.outcome ..)
    · rename_i room
      dsimp only
      split
      · trivial
      · have free : isFull r p t = false := by simpa using room
        have same : (t.setOutcome p .taken).room p (need r.kind p r.volume r.params (t.setOutcome p .taken)) := by
          have held : ∀ q, (t.setOutcome p .taken).held q = t.held q := fun q => by
            by_cases e : p.val = q.val
            · simp [State.held, e]
            · simp [State.held, Vector.getElem_set_ne, e]
          intro law entries
          rw [held]
          exact room_of_not_full free law fun q => by have := entries q; rwa [held] at this
        have accepted := h.move (.outcome t p .taken)
        have short : isEngineKind r.kind = true → t.fifos[p].length < Config.fifoEntries := fun engine => by
          simpa [isFull, engine] using (Bool.or_eq_false_iff.mp free).2
        change Reaches s true (Machine.takeRequest r p _)
        unfold State.reload
        split
        · split
          · exact accepted.takeRequest ⟨same, short, begun.1⟩
          · split
            · exact accepted.takeRequest ⟨same, short, begun.1⟩
            · rename_i c _
              have keeps : ∀ cl : Claim, ({ cl with lease := (t.setOutcome p .taken).values.lease } : Claim).identity = cl.identity :=
                fun _ => rfl
              refine (accepted.move (.claimFields _ c _ keeps)).takeRequest ⟨?_, short, begun.1⟩
              rw [State.need_onClaim _ _ _ keeps]
              exact State.room_onClaim _ _ _ keeps same
        · exact accepted.takeRequest ⟨same, short, begun.1⟩

theorem Framed.finishStatus (extra : Nat) : ReachedBy s (finishStatus p extra f t) :=
  Reaches.framed <| h.move (.closeFrame ..)

theorem Framed.finishFetch (bits : Nat) : ReachedBy s (finishFetch p bits f t) := by
  unfold Machine.finishFetch
  dsimp only
  have closed := fun out => h.move (.closeFrame t p out)
  split
  · exact Reaches.framed <| (closed _).move (.pop _ p (by simp))
  · exact Reaches.framed (closed _)

theorem Framed.finishSubmit (extra : Nat) : ReachedBy s (finishSubmit r p extra f t) :=
  (h.move (.closeFrame t p _)).submitRequest r p

theorem Framed.finishRawSubmit (bytes : List Byte) : ReachedBy s (finishRawSubmit p bytes f t) := by
  unfold Machine.finishRawSubmit
  dsimp only
  have closed := fun out => h.move (.closeFrame t p out)
  split
  · exact Reaches.framed <| (closed _).move (.outcome ..)
  · exact (closed _).submitRequest _ p

theorem Framed.finishRaw (bytes : List Byte) : ReachedBy s (finishRaw p bytes f t) := by
  unfold Machine.finishRaw
  split
  · exact Reaches.framed <| h.move (.closeFrame ..)
  · split
    · exact h.finishStatus p f _
    · split
      · exact h.finishRawSubmit p f _
      · split
        · exact h.finishFetch p f _
        · exact Reaches.framed <| (h.move (.closeFrame ..)).move (.outcome ..)

end

section
variable (p : Port) (wire : List Byte) {finish : Frame → State → Res}
  (ends : ∀ f {s t : State}, Framed s t → ReachedBy s (finish f t))
include ends

theorem Framed.endFrame {s t : State} (h : Framed s t) : ReachedBy s (endFrame p wire finish t) := by
  unfold Machine.endFrame
  split
  · rename_i quiet
    exact Reaches.framed <| h.move (.select t p false (.inr quiet))
  · split
    · exact ends _ h
    · exact Reaches.framed h

/-- A frame command at each of its moments (R156, R171, R174). -/
theorem frameStep_reached (m : Moment) (s : State) : ReachedBy s (frameStep p m wire finish s) := by
  have start : Framed s s := .refl
  unfold frameStep
  split
  · rename_i dead
    cases m with
    | received n => exact Reaches.framed start
    | select | deselect | whole => exact Reaches.framed <| start.move (.select s p _ (.inl dead))
  · rename_i serves
    have serves : s.serves p = true := by simpa using serves
    cases m with
    | select => exact Reaches.framed <| start.move (.openFrame s p serves)
    | received n => exact Reaches.framed <| start.move (.receive s p wire n)
    | deselect => exact start.endFrame p wire ends
    | whole => exact (start.move (.openFrame s p serves)).endFrame p wire ends

end

theorem submitFrame_reached (k : Kind) (f : Submit) (s : State) : ReachedBy s (submitFrame k f s) :=
  frameStep_reached f.port _ (fun _ _ _ h => h.finishSubmit _ f.port _ _) f.moment s

end Sys2Proof.Machine
end

section
/-! Every event is one event of `Event`, with its grants, revocations and picks after it; and every command with that (R90, R103,
R114, R115, R141, R171). -/

namespace Sys2Proof.Machine

variable {s : State}

theorem State.flightIs_some {k : Kind} {e : InFlight} (h : s.flightIs k = some e) : s.engine = some e ∧ e.op.kind = k := by
  unfold State.flightIs at h
  split at h
  · split at h
    · cases h
      exact ⟨by assumption, by assumption⟩
    · cases h
  · cases h

theorem Event.completes {t : State} {st : Status} {body : List Byte} {b : Bool} (h : Event s b (t.finish st body)) :
    Reaches s true (t.complete st body) :=
  (Reaches.event h).pick

theorem Event.next {t : State} (h : Event s true t) : ReachedBy s (.next t) := Reaches.event h

/-! ### Staging -/

theorem execEraseCompletion_reached (ok : Bool) : ReachedBy s (execEraseCompletion ok s) := by
  unfold execEraseCompletion
  split
  · exact Reaches.refl
  · rename_i e flight
    obtain ⟨busy, kind⟩ := State.flightIs_some flight
    split
    · rename_i n phase
      split
      · rename_i inside
        change Reaches s true (eraseEnds ok e n s)
        unfold eraseEnds
        dsimp only
        split
        · exact (Event.eraseEnds e n _ _ _ _ _ busy kind phase inside (.inl rfl)).completes
        · exact (Event.eraseEnds e n _ _ _ _ _ busy kind phase inside (.inr rfl)).completes
      · trivial
    all_goals exact Reaches.refl

theorem execProgramCompletion_reached (ok : Bool) : ReachedBy s (execProgramCompletion ok s) := by
  unfold execProgramCompletion
  split
  · exact Reaches.refl
  · rename_i e flight
    obtain ⟨busy, kind⟩ := State.flightIs_some flight
    split
    · rename_i n pg phase
      split
      · rename_i inside
        change Reaches s true (programEnds ok e n pg s)
        unfold programEnds
        dsimp only
        split
        · exact (Event.programEnds e n pg _ _ _ _ _ busy kind phase inside (.inl rfl)).completes
        · exact (Event.programEnds e n pg _ _ _ _ _ busy kind phase inside (.inr rfl)).completes
      · trivial
    all_goals exact Reaches.refl

theorem execCommitVerifyEnd_reached : ReachedBy s (execCommitVerifyEnd s) := by
  unfold execCommitVerifyEnd
  split
  · exact Reaches.refl
  · rename_i e flight
    obtain ⟨busy, kind⟩ := State.flightIs_some flight
    split
    · rename_i phase
      split
      · exact Reaches.refl
      · rename_i v x sl staged
        split
        · change Reaches s true (verifyEnds e v x sl s)
          unfold verifyEnds
          dsimp only
          split
          · exact (Event.finished _ _).completes
          · split
            · rename_i begins
              exact .event (.verified e v x sl _ _ _ busy kind phase staged rfl begins)
            · rename_i ends
              rw [beginRecord_ends ends]
              exact (Event.beginLost e busy kind _ _).completes
        · trivial
    all_goals exact Reaches.refl

/-! ### Journal entries -/

theorem entryCompletes_reached (k : Kind) (body : InFlight → State → List Byte) :
    ReachedBy s (entryCompletes k (entryEffect k) body s) := by
  unfold entryCompletes
  split
  · exact Reaches.refl
  · rename_i e en j under
    split
    · rename_i inside
      exact (Event.entry k e en j .done _ under inside).completes
    · trivial

theorem currentFaults_reached {e : InFlight} {js : JSector} {j : Journal} (busy : s.engine = some e)
    (phase : e.phase = .journaling js) (own : e.own = none) (journal : s.journal = some j) (inside : j.append < Config.positions) :
    Reaches s true (currentFaults e j s) := by
  unfold currentFaults
  dsimp only
  split
  · have lost : Reaches s false (s.recordLost e j) := .event (.lost e js j busy phase own journal inside)
    unfold loseRecord
    dsimp only
    split
    · exact (lost.move (.grants _)).pick
    · exact lost.pick
  · rename_i more
    rw [not_or, Nat.not_le, Nat.not_le] at more
    exact .event (.retried e js j busy phase own journal more.1 more.2)

theorem ownFaults_reached {e : InFlight} {js : JSector} {o : OwnSector} (busy : s.engine = some e)
    (phase : e.phase = .journaling js) (own : e.own = some o) (inside : o.pos < Config.positions) :
    Reaches s true (ownFaults e js o s) := by
  unfold ownFaults
  dsimp only
  split
  · unfold loseOwn
    split
    · rename_i compact
      exact (Event.ownLost e js o .degraded .done [] busy phase own inside (by rw [if_pos compact])).completes
    · rename_i other
      exact (Event.ownLost e js o s.mode .arrayFault [] busy phase own inside (by rw [if_neg other])).completes
  · rename_i more
    rw [not_or, Nat.not_le, Nat.not_le] at more
    exact .event (.ownRetried e js o busy phase own more.1 more.2)

theorem execJournalWriteFault_reached : ReachedBy s (execJournalWriteFault s) := by
  unfold execJournalWriteFault
  split
  · exact Reaches.refl
  · rename_i e busy
    split
    · rename_i js phase
      split
      · rename_i o own
        split
        · exact ownFaults_reached busy phase own (by assumption)
        · trivial
      · rename_i own
        split
        · exact Reaches.refl
        · rename_i j journal
          split
          · exact currentFaults_reached busy phase own journal (by assumption)
          · trivial
    all_goals exact Reaches.refl

/-! ### COMPACT, FORMAT and PROVISION -/

theorem execCompactEraseEnd_reached (ok : Bool) : ReachedBy s (execCompactEraseEnd ok s) := by
  unfold execCompactEraseEnd
  split
  · rename_i e j flight journal
    obtain ⟨busy, kind⟩ := State.flightIs_some flight
    split
    · rename_i n phase
      split
      · exact (Event.compactErased e j n busy kind journal phase).next
      · exact (Event.compactEraseFails e n .done [] busy kind phase).completes
    all_goals exact Reaches.refl
  · exact Reaches.refl

theorem State.ownUnder_some {k : Kind} {js : JSector} {en : JEntry} {o : OwnSector} (h : s.ownUnder k = some (js, en, o)) :
    ∃ e, s.engine = some e ∧ e.op.kind = k ∧ e.phase = .journaling js ∧ e.entry = some en ∧ e.own = some o := by
  unfold State.ownUnder at h
  split at h
  · cases h
  · rename_i e flight
    obtain ⟨busy, kind⟩ := State.flightIs_some flight
    split at h
    · rename_i phase entry own
      cases h
      exact ⟨e, busy, kind, phase, entry, own⟩
    · cases h

theorem ownCompletes_reached (k : Kind) (which : JRecord → Bool) (kinds : k = .compact ∨ k = .format) :
    ReachedBy s (ownCompletes k which s) := by
  unfold ownCompletes
  split
  · exact Reaches.refl
  · rename_i js en o under
    obtain ⟨e, busy, kind, phase, entry, own⟩ := State.ownUnder_some under
    split
    · exact Reaches.refl
    · rename_i item rest todo
      split
      · split
        · exact (Event.ownAdvances e js en o item rest busy (kind ▸ kinds) phase entry own todo (by assumption)).next
        · trivial
      · exact Reaches.refl

theorem execCompactSnapEndCompletes_reached : ReachedBy s (execCompactSnapEndCompletes s) := by
  unfold execCompactSnapEndCompletes
  split
  · exact Reaches.refl
  · rename_i js en o under
    obtain ⟨e, busy, kind, phase, entry, own⟩ := State.ownUnder_some under
    split
    · rename_i fin
      split
      · exact (Event.switched e js en o s.mode .done [] busy (.inl ⟨kind, rfl⟩) phase entry own fin (by assumption)).completes
      · trivial
    · exact Reaches.refl

theorem execFormatEraseEnd_reached (ok : Bool) : ReachedBy s (execFormatEraseEnd ok s) := by
  unfold execFormatEraseEnd
  split
  · exact Reaches.refl
  · rename_i e flight
    obtain ⟨busy, kind⟩ := State.flightIs_some flight
    split
    · rename_i n phase
      split
      · exact (Event.formatErased e n busy kind phase).next
      · exact (Event.formatEraseFails e n .arrayFault [] busy kind phase).completes
    all_goals exact Reaches.refl

theorem execFormatSnapEndCompletes_reached : ReachedBy s (execFormatSnapEndCompletes s) := by
  unfold execFormatSnapEndCompletes
  split
  · exact Reaches.refl
  · rename_i js en o under
    obtain ⟨e, busy, kind, phase, entry, own⟩ := State.ownUnder_some under
    split
    · rename_i fin
      split
      · exact (Event.switched e js en o .normal .done [] busy (.inr ⟨kind, rfl⟩) phase entry own fin (by assumption)).completes
      · trivial
    · exact Reaches.refl

theorem execRowWriteEnd_reached (ok : Bool) : ReachedBy s (execRowWriteEnd ok s) := by
  unfold execRowWriteEnd
  split
  · exact Reaches.refl
  · rename_i e flight
    obtain ⟨busy, kind⟩ := State.flightIs_some flight
    split
    · rename_i phase
      split
      · exact (Event.rowWritten e _ _ .done _ busy kind phase).completes
      · exact (Event.rowWritten e _ _ .arrayFault [] busy kind phase).completes
    all_goals exact Reaches.refl

/-! ### Leases and lines -/

/-- A running lease that reaches 0 ends its HELD claim (R53). -/
theorem Reaches.expire {t : State} (h : Reaches s true t) {c : ClaimIx} {cl : Claim} (entry : t.claims[c] = some cl)
    (runs : cl.runs = true) : Reaches s true (t.expire c) := by
  have held : cl.state = .held := by
    simp only [Claim.runs, Bool.and_eq_true, beq_iff_eq] at runs
    exact runs.1
  have lowered := h.move (.claimFields t c (fun cl => { cl with lease := 0 }) fun _ => rfl)
  refine lowered.move (.revoke _ c .expired { cl with lease := 0 } ?_ held)
  rw [State.onClaim_get, if_pos rfl, entry]
  rfl

theorem execLeaseUnitEnd_reached (c : ClaimIx) : ReachedBy s (execLeaseUnitEnd c s) := by
  unfold execLeaseUnitEnd
  split
  · exact Reaches.refl
  · rename_i cl entry
    split
    · rename_i runs
      split
      · exact Reaches.refl.expire entry runs
      · have ticked := Reaches.refl.move (.claimFields s c (fun cl => { cl with lease := cl.lease - 1 }) fun _ => rfl)
        rw [State.onClaim, entry] at ticked
        exact ticked
    · exact Reaches.refl

theorem execLeaseExpiry_reached (c : ClaimIx) : ReachedBy s (execLeaseExpiry c s) := by
  unfold execLeaseExpiry
  split
  · exact Reaches.refl
  · rename_i cl entry
    split
    · rename_i runs
      exact Reaches.refl.expire entry runs.1
    · exact Reaches.refl

/-- Changes one after another. -/
inductive Moves : State → State → Prop
  | refl (s : State) : Moves s s
  | tail {s t u : State} (h : Moves s t) (m : Move t u) : Moves s u

theorem Moves.keeps {P : State → Prop} {s t : State} (h : Moves s t) (start : P s) (move : ∀ u w, P u → Move u w → P w) : P t := by
  induction h with
  | refl => exact start
  | tail _ m ih => exact move _ _ ih m

theorem Reaches.moves {t u : State} {b : Bool} (h : Reaches s b t) (ms : Moves t u) : Reaches s b u :=
  ms.keeps (P := Reaches s b) h fun _ _ reached m => reached.move m

theorem Moves.foldl {α : Type} {f : State → α → State} (body : ∀ u a, Moves u (f u a)) (xs : List α) (s : State) :
    Moves s (xs.foldl f s) := by
  have all : ∀ t, Moves s t → Moves s (xs.foldl f t) := by
    induction xs with
    | nil => exact fun t h => h
    | cons x rest ih =>
      intro t h
      exact ih (f t x) ((body t x).keeps (P := Moves s) h fun _ _ reached m => reached.tail m)
  exact all s (.refl s)

theorem Moves.revokeVolume (s : State) (v : Vol) (n : Notice) : Moves s (s.revokeVolume v n) := by
  unfold State.revokeVolume
  split
  · exact .refl s
  · split
    · exact .refl s
    · rename_i c _ _ cl entry
      split
      · rename_i held
        exact (Moves.refl s).tail (.revoke s c n cl entry held)
      · exact .refl s

theorem Moves.revokeIfPinned (s : State) (v : Vol) : Moves s (s.revokeIfPinned v) := by
  unfold State.revokeIfPinned
  split
  · exact .refl s
  · split
    · exact .revokeVolume s v .revoked
    · exact .refl s

theorem Moves.dropClaim (p : Port) (s : State) (v : Vol) : Moves s (s.dropClaim p v) := by
  unfold State.dropClaim
  split
  · exact .refl s
  · rename_i c claim
    obtain ⟨cl, entry, -, -, held⟩ := State.heldClaim_some s p v c claim
    exact (Moves.refl s).tail (.revoke s c .silent cl entry held)

/-- The claims of pinned volumes end one after another when PINEN is asserted (R141). -/
theorem Moves.pinenRises (s : State) : Moves s ((List.finRange 32).foldl State.revokeIfPinned s) := .foldl Moves.revokeIfPinned _ s

theorem execPnrstAssert_reached (p : Port) : ReachedBy s (execPnrstAssert p s) :=
  (Reaches.event (.portCleared p)).moves (.foldl (Moves.dropClaim p) _ _)

theorem execStartUpEnd_reached : ReachedBy s (execStartUpEnd s) := by
  unfold execStartUpEnd
  split
  · rename_i ready
    obtain ⟨powered, line, starting⟩ := ready
    change Reaches s true s.deriveRow.emptyClaims.started
    unfold State.started
    split
    · rename_i unusable
      exact .event (.unformatted powered line starting unusable)
    · rename_i r usable
      exact (Reaches.event (.replayed r powered line starting usable)).pick
  · exact Reaches.refl

/-! ### Every command -/

/-- What a command other than POWER_ON comes to: one event at most, then moves and picks of the arbiter. -/
theorem exec_reachedBy (c : Instr) (s : State) (other : c ≠ .powerOn) : ReachedBy s (exec c s) := by
  cases c with
  | statusFrame p m x => exact frameStep_reached p _ (fun f _ _ h => h.finishStatus p f _) m s
  | fetchFrame p m x => exact frameStep_reached p _ (fun f _ _ h => h.finishFetch p f _) m s
  | unknownFrame p m b => exact frameStep_reached p _ (fun f _ _ h => h.finishRaw p f _) m s
  | submitRejected p m b => exact frameStep_reached p _ (fun f _ _ h => h.finishRawSubmit p f _) m s
  | queryDevice f | queryVolume f | createVolume f | deleteVolume f | setAccess f | pin f | unpin f | format f | provision f
  | read f | openView f | closeView f | claim f | release f | renew f | beginStage f | erase f | program f | readStaged f
  | commit f | rollback f => exact submitFrame_reached _ f s
  | eraseCompletion ok => exact execEraseCompletion_reached ok
  | programCompletion ok => exact execProgramCompletion_reached ok
  | commitVerifyEnd => exact execCommitVerifyEnd_reached
  | createEntryCompletes | deleteEntryCompletes | accessEntryCompletes | pinEntryCompletes | unpinEntryCompletes
  | stageEntryCompletes | commitEntryCompletes | rollbackEntryCompletes => exact entryCompletes_reached _ _
  | journalWriteFault => exact execJournalWriteFault_reached
  | compactEraseEnd ok => exact execCompactEraseEnd_reached ok
  | snapshotEntryCompletes => exact ownCompletes_reached _ (fun r => !isSnapEnd r) (.inl rfl)
  | formatHeaderCompletes => exact ownCompletes_reached _ isHeader (.inr rfl)
  | compactSnapEndCompletes => exact execCompactSnapEndCompletes_reached
  | formatEraseEnd ok => exact execFormatEraseEnd_reached ok
  | formatSnapEndCompletes => exact execFormatSnapEndCompletes_reached
  | rowWriteEnd ok => exact execRowWriteEnd_reached ok
  | leaseUnitEnd i => exact execLeaseUnitEnd_reached i
  | leaseExpiry i => exact execLeaseExpiry_reached i
  | pinenAssertion => exact (Event.pinenRises).next
  | pinenDeassertion => exact (Event.pinenFalls).next
  | pnrstAssert p => exact execPnrstAssert_reached p
  | pnrstDeassert p => exact (Event.portServes p).next
  | resetAssert cut => exact (Event.resetRises cut).next
  | resetDeassert =>
    change ReachedBy s (execResetDeassert s)
    unfold execResetDeassert
    split
    · exact (Event.resetFalls (by assumption)).next
    · exact Reaches.refl
  | powerOn => exact absurd rfl other
  | powerLoss cut => exact (Event.powerFalls cut).next
  | startUpEnd => exact execStartUpEnd_reached

theorem exec_reaches {c : Instr} {s t : State} (h : exec c s = .next t) (other : c ≠ .powerOn) : Reaches s true t := by
  have reached := exec_reachedBy c s other
  rwa [h] at reached

/-- What a power-on and every other command bring about holds after each command. -/
theorem exec_keeps {c : Instr} {s t : State} {P : State → Prop} (h : exec c s = .next t) (powerOn : P s.poweredOn)
    (other : Reaches s true t → P t) : P t := by
  by_cases on : c = .powerOn
  · subst on
    cases h
    exact powerOn
  · exact other (exec_reaches h on)

end Sys2Proof.Machine
end

section
/-! The frame of each step: which fields a move, a pick and an event can change. From it follow the laws of the array (R1) and of
the queue of commands. -/

namespace Sys2Proof.Machine

/-- A move changes ports, claims, waits, views, FIFOs, the operation in flight and the directory alone. -/
theorem Move.frame {s t : State} (m : Move s t) : ∃ h d vs cs ws fs e,
    t = { s with hpi := h, vols := d, views := vs, claims := cs, waits := ws, fifos := fs, engine := e } := by
  cases m with
  | revoke c n cl entry held =>
    obtain ⟨d, ws, cs, fs, h, e, -⟩ := s.revoke_frame c n
    rw [e]
    exact ⟨_, _, _, _, _, _, _, rfl⟩
  | grants =>
    obtain ⟨ws, cs, h, e, -⟩ := s.grantAll_frame
    rw [e]
    exact ⟨_, _, _, _, _, _, _, rfl⟩
  | receive p wire n =>
    unfold State.receive
    split
    · exact ⟨_, _, _, _, _, _, _, rfl⟩
    · split <;> exact ⟨_, _, _, _, _, _, _, rfl⟩
  | _ => exact ⟨_, _, _, _, _, _, _, rfl⟩

/-- What a start begins changes the operation in flight and a deletion flag alone. -/
theorem Begun.frame {o : Op} {s t : State} (h : Begun o s t) : ∃ d e, t = { s with vols := d, engine := e } := by
  cases h <;> exact ⟨_, _, rfl⟩

/-- A pick changes neither views nor the lines, the array, the journal and the row; the mode can only become DEGRADED. -/
theorem Work.frame {s t : State} (w : Work s t) : ∃ h d cs ws fs b r e m,
    t = { s with hpi := h, vols := d, claims := cs, waits := ws, fifos := fs, compactSlot := b, rr := r, engine := e, mode := m }
      ∧ (m = s.mode ∨ m = .degraded) := by
  cases w with
  | runs u _ o idle begun picked starts =>
    obtain ⟨fs, b, r, e, rfl⟩ := s.takePick_frame o u picked
    obtain ⟨d, e', rfl⟩ := (startOp_runs starts).frame
    exact ⟨_, _, _, _, _, _, _, _, _, rfl, .inl rfl⟩
  | ends u v o st body idle begun picked starts =>
    obtain ⟨fs, b, r, e, rfl⟩ := s.takePick_frame o u picked
    obtain ⟨d, ws, cs, h, finished, -⟩ := v.finish_frame st body
    rw [finished]
    rcases startOp_ends starts with rfl | rfl
    · exact ⟨_, _, _, _, _, _, _, _, _, rfl, .inl rfl⟩
    · exact ⟨_, _, _, _, _, _, _, _, _, rfl, .inr rfl⟩

theorem Ask.frame {s t : State} (a : Ask s t) : ∃ h cs ws, t = { s with hpi := h, claims := cs, waits := ws } := by
  cases a <;> exact ⟨_, _, _, rfl⟩

theorem Queue.frame {s t : State} (q : Queue s t) : ∃ fs, t = { s with fifos := fs } := by
  cases q
  exact ⟨_, rfl⟩

theorem Moves.frame {s t : State} (ms : Moves s t) : ∃ h d vs cs ws fs e,
    t = { s with hpi := h, vols := d, views := vs, claims := cs, waits := ws, fifos := fs, engine := e } :=
  ms.keeps (P := fun t => ∃ h d vs cs ws fs e,
      t = { s with hpi := h, vols := d, views := vs, claims := cs, waits := ws, fifos := fs, engine := e })
    ⟨_, _, _, _, _, _, _, rfl⟩ fun u w ⟨h, d, vs, cs, ws, fs, e, eq⟩ m => by
      obtain ⟨h', d', vs', cs', ws', fs', e', rfl⟩ := m.frame
      subst eq
      exact ⟨_, _, _, _, _, _, _, rfl⟩

theorem State.setMapEntry_frame (s : State) (c : Option ClaimIx) (i : Nat) (m : MapEntry) :
    ∃ cs, s.setMapEntry c i m = { s with claims := cs } := by
  cases c <;> exact ⟨_, rfl⟩

theorem State.compactionCheck_frame (s : State) : ∃ b, s.compactionCheck = { s with compactSlot := b } := by
  unfold State.compactionCheck State.scheduleCompaction
  split
  · exact ⟨_, rfl⟩
  · split
    · split <;> exact ⟨_, rfl⟩
    · exact ⟨_, rfl⟩

theorem forVolume_frame {f : Vol → State → State}
    (body : ∀ v u, ∃ d ws cs fs h, f v u = { u with vols := d, waits := ws, claims := cs, fifos := fs, hpi := h })
    (e : InFlight) (s : State) :
    ∃ d ws cs fs h, forVolume f e s = { s with vols := d, waits := ws, claims := cs, fifos := fs, hpi := h } := by
  unfold forVolume
  split
  · exact ⟨_, _, _, _, _, rfl⟩
  · exact body _ s

/-- The effects of R18, R20, R66, R79 and R139 reach the claims, the waiters and what follows from them. -/
theorem entryEffect_frame (k : Kind) (e : InFlight) (s : State) :
    ∃ d ws cs fs h, entryEffect k e s = { s with vols := d, waits := ws, claims := cs, fifos := fs, hpi := h } := by
  have same : ∃ d ws cs fs h, s = { s with vols := d, waits := ws, claims := cs, fifos := fs, hpi := h } := ⟨_, _, _, _, _, rfl⟩
  cases k with
  | deleteVolume => exact forVolume_frame (fun v u => ⟨_, _, _, _, _, u.removeWaiters_told ..⟩) e s
  | setAccess =>
    refine forVolume_frame (fun v u => ?_) e s
    unfold afterAccess
    split
    · exact ⟨_, _, _, _, _, rfl⟩
    · dsimp only
      rw [u.removeWaiters_told]
      split
      · exact ⟨_, _, _, _, _, rfl⟩
      · split
        · exact ⟨_, _, _, _, _, rfl⟩
        · split
          · obtain ⟨d, ws, cs, fs, h, e, -⟩ := State.revoke_frame _ _ _
            rw [e]
            exact ⟨_, _, _, _, _, rfl⟩
          · exact ⟨_, _, _, _, _, rfl⟩
  | pin =>
    refine forVolume_frame (fun v u => ?_) e s
    unfold afterPin
    split
    · rw [u.removeWaiters_told]
      unfold State.revokeVolume
      split
      · exact ⟨_, _, _, _, _, rfl⟩
      · split
        · exact ⟨_, _, _, _, _, rfl⟩
        · split
          · obtain ⟨d, ws, cs, fs, h, e, -⟩ := State.revoke_frame _ _ _
            rw [e]
            exact ⟨_, _, _, _, _, rfl⟩
          · exact ⟨_, _, _, _, _, rfl⟩
    · exact ⟨_, _, _, _, _, rfl⟩
  | beginStage =>
    change ∃ d ws cs fs h, afterStage e s = _
    unfold afterStage
    split
    · split <;> exact ⟨_, _, _, _, _, rfl⟩
    · exact same
  | commit =>
    change ∃ d ws cs fs h, afterCommit e s = _
    unfold afterCommit
    split <;> exact ⟨_, _, _, _, _, rfl⟩
  | _ => exact same

theorem clearDeleting_frame (e : InFlight) (s : State) : ∃ d, clearDeleting e s = { s with vols := d } := by
  unfold clearDeleting forVolume
  split
  · split <;> exact ⟨_, rfl⟩
  · exact ⟨_, rfl⟩

/-- The frame of an event that ends an operation. -/
theorem State.finish_keeps (s : State) (st : Status) (body : List Byte) :
    (s.finish st body).store = s.store ∧ (s.finish st body).pending = s.pending := by
  obtain ⟨d, ws, cs, h, e, -⟩ := s.finish_frame st body
  rw [e]
  exact ⟨rfl, rfl⟩

theorem State.setMapEntry_keeps (s : State) (c : Option ClaimIx) (i : Nat) (m : MapEntry) :
    (s.setMapEntry c i m).store = s.store ∧ (s.setMapEntry c i m).pending = s.pending := by
  obtain ⟨cs, e⟩ := s.setMapEntry_frame c i m
  rw [e]
  exact ⟨rfl, rfl⟩

theorem State.compactionCheck_keeps (s : State) :
    s.compactionCheck.store = s.store ∧ s.compactionCheck.pending = s.pending := by
  obtain ⟨b, e⟩ := s.compactionCheck_frame
  rw [e]
  exact ⟨rfl, rfl⟩

theorem entryEffect_keeps (k : Kind) (e : InFlight) (s : State) :
    (entryEffect k e s).store = s.store ∧ (entryEffect k e s).pending = s.pending := by
  obtain ⟨d, ws, cs, fs, h, eq⟩ := entryEffect_frame k e s
  rw [eq]
  exact ⟨rfl, rfl⟩

theorem clearDeleting_keeps (e : InFlight) (s : State) :
    (clearDeleting e s).store = s.store ∧ (clearDeleting e s).pending = s.pending := by
  obtain ⟨d, eq⟩ := clearDeleting_frame e s
  rw [eq]
  exact ⟨rfl, rfl⟩

theorem Moves.store_pending {s t : State} (ms : Moves s t) : t.store = s.store ∧ t.pending = s.pending := by
  obtain ⟨h, d, vs, cs, ws, fs, e, rfl⟩ := ms.frame
  exact ⟨rfl, rfl⟩

theorem State.pinenUp_keeps (s : State) : s.pinenUp.store = s.store ∧ s.pinenUp.pending = s.pending := by
  simp only [State.pinenUp, State.removeWaiters_told]
  exact ⟨trivial, trivial⟩

theorem State.dropFifo_frame (s : State) (p : Port) : ∃ cs, s.dropFifo p = { s with fifos := s.fifos.set p [], claims := cs } := by
  unfold State.dropFifo
  generalize s.fifos[p] = ops
  have all : ∀ u : State, ∃ cs, ops.foldl State.unbind u = { u with claims := cs } := by
    induction ops with
    | nil => exact fun u => ⟨_, rfl⟩
    | cons o rest ih =>
      intro u
      have one : ∃ cs, u.unbind o = { u with claims := cs } := by
        unfold State.unbind
        split <;> exact ⟨_, rfl⟩
      obtain ⟨cs, first⟩ := one
      obtain ⟨cs', others⟩ := ih { u with claims := cs }
      exact ⟨cs', by rw [List.foldl_cons, first, others]⟩
  exact all (s.setFifo p [])

/-- R171, R111: what a port reset clears, but for the pending counts of claims. -/
theorem State.portCleared_frame (s : State) (p : Port) : ∃ cs, s.portCleared p = { s with
    hpi := s.hpi.set p (Hpi.cleared true s.hpi[p].sel)
    views := s.views.set p (Vector.replicate 4 none)
    fifos := s.fifos.set p []
    claims := cs
    engine := s.engine.map (fun e => if e.port = some p then { e with discard := true } else e)
    waits := s.waits.filter (fun w => w.port != p) } := by
  obtain ⟨cs, e⟩ := ((s.setHpi p (Hpi.cleared true s.hpi[p].sel)).closeViews p).dropFifo_frame p
  unfold State.portCleared
  rw [e]
  exact ⟨cs, rfl⟩

theorem State.abort_keeps (s : State) (cut : Cut) : (s.abort cut).pending = s.pending := by
  unfold State.abort
  split
  · rfl
  · split
    · rfl
    · rfl
    · rfl
    · rfl
    · split
      · rfl
      · split <;> rfl
    · rfl

/-! ### The queue of commands (log entry 2) -/

theorem Event.pending {s t : State} {b : Bool} (h : Event s b t) : t.pending = s.pending := by
  have fin := fun (u : State) st body => (u.finish_keeps st body).2
  cases h with
  | finished | beginLost | ownLost | compactEraseFails | formatEraseFails | switched | rowWritten => exact fin ..
  | eraseEnds | programEnds => exact (fin ..).trans (State.setMapEntry_keeps ..).2
  | verified e v x sl len crc u busy kind phase staged length begins =>
    obtain ⟨j, -, -, rfl⟩ := beginRecord_runs begins
    rfl
  | entry k e en j st body under inside =>
    exact (fin ..).trans ((entryEffect_keeps ..).2.trans (State.compactionCheck_keeps _).2)
  | lost e js j => exact (fin ..).trans (clearDeleting_keeps ..).2
  | formatErased e n =>
    unfold Machine.formatErased
    dsimp only
    split <;> rfl
  | pinenRises => exact (Moves.pinenRises _).store_pending.2.trans s.pinenUp_keeps.2
  | portCleared p =>
    obtain ⟨cs, e⟩ := s.portCleared_frame p
    rw [e]
  | resetRises cut | powerFalls cut => exact s.abort_keeps cut
  | replayed => exact (State.compactionCheck_keeps _).2
  | _ => rfl

theorem Reaches.pending {s t : State} {b : Bool} (h : Reaches s b t) : t.pending = s.pending :=
  h.keeps (P := fun t => t.pending = s.pending) rfl (fun _ _ e => e.pending)
    (fun u w same m => by obtain ⟨_, _, _, _, _, _, _, rfl⟩ := m.frame; exact same)
    (fun u w same a => by obtain ⟨_, _, _, rfl⟩ := a.frame; exact same)
    (fun u w same q => by obtain ⟨_, rfl⟩ := q.frame; exact same)
    (fun u w same m => by obtain ⟨_, _, _, _, _, _, _, _, _, rfl, -⟩ := m.frame; exact same)

/-- Settles O2: every command ends in a state that it reaches by steps, of which none touches the queue, or in the fault. -/
theorem commandsRunAndKeepTheQueue : Obligations.CommandsRunAndKeepTheQueue := by
  intro c s
  cases r : exec c s with
  | next t => exact .inl ⟨t, rfl, exec_keeps (P := fun t => t.pending = s.pending) r (s.abort_keeps .during) Reaches.pending⟩
  | fault x => exact .inr (by cases x; rfl)
  | refused x =>
    have reached := exec_reachedBy c s fun on => by
      subst on
      cases r
    rw [r] at reached
    exact reached.elim

/-! ### The array (R1) -/

section
variable (st : Store) (wf : st.wf = true)
include wf

theorem Store.spoilSector_wf (n : Nat) : (st.spoilSector n).wf = true := st.spoil_wf (sectorBase n) Config.sectorBytes wf

theorem Store.spoilPage_wf (n pg : Nat) : (st.spoilPage n pg).wf = true :=
  st.spoil_wf (sectorBase n + pg * Config.pageBytes) Config.pageBytes wf

theorem Store.spoilPosition_wf (j : JSector) (k : Nat) : (st.spoilPosition j k).wf = true :=
  st.spoil_wf (positionBase j k) Config.positionBytes wf

end

theorem State.abort_store_wf (s : State) (cut : Cut) (wf : s.store.wf = true) : (s.abort cut).store.wf = true := by
  unfold State.abort
  split
  · exact wf
  · split
    · exact wf
    · exact wf
    · dsimp only
      exact s.store.spoilSector_wf wf _
    · exact s.store.spoilPage_wf wf _ _
    · split
      · exact wf
      · split
        · exact wf
        · exact s.store.spoilPosition_wf wf _ _
    · exact wf

theorem Event.store_wf {s t : State} {b : Bool} (h : Event s b t) (wf : s.store.wf = true) : t.store.wf = true := by
  have fin : ∀ (u : State) st body, u.store.wf = true → (u.finish st body).store.wf = true := fun u st body w => by
    rw [(u.finish_keeps st body).1]
    exact w
  have erased := fun n => Store.eraseSector_wf s.store n wf
  cases h with
  | finished | beginLost | rowWritten => exact fin _ _ _ wf
  | eraseEnds e n i m store st body busy kind phase inside worked =>
    refine fin _ _ _ ?_
    rw [(State.setMapEntry_keeps ..).1]
    dsimp only
    rcases worked with worked | worked <;> rw [worked]
    · exact erased n
    · exact s.store.spoilSector_wf wf n
  | programEnds e n pg i m store st body busy kind phase inside worked =>
    refine fin _ _ _ ?_
    rw [(State.setMapEntry_keeps ..).1]
    rcases worked with rfl | rfl
    · exact s.store.program_wf (pageBase n pg) _ wf inside
    · exact s.store.spoilPage_wf wf n pg
  | verified e v x sl len crc u busy kind phase staged length begins =>
    obtain ⟨j, -, -, rfl⟩ := beginRecord_runs begins
    exact wf
  | entry k e en j st body under inside =>
    refine fin _ _ _ ?_
    rw [(entryEffect_keeps ..).1]
    unfold State.journalled
    rw [(State.compactionCheck_keeps _).1]
    exact Store.entry_wf _ _ _ _ wf inside
  | lost e js j =>
    refine fin _ _ _ ?_
    rw [(clearDeleting_keeps ..).1]
    exact s.store.spoilPosition_wf wf _ _
  | ownLost => exact fin _ _ _ (s.store.spoilPosition_wf wf _ _)
  | compactEraseFails | formatEraseFails =>
    refine fin _ _ _ ?_
    dsimp only
    exact s.store.spoilSector_wf wf _
  | retried | ownRetried => exact s.store.spoilPosition_wf wf _ _
  | switched e js en o m st body busy kind phase entry own last inside => exact fin _ _ _ (Store.entry_wf _ _ _ _ wf inside)
  | ownAdvances e js en o item rest busy kind phase entry own todo inside => exact Store.entry_wf _ _ _ _ wf inside
  | compactErased => exact erased _
  | formatErased e n =>
    unfold Machine.formatErased
    dsimp only
    split <;> exact erased n
  | pinenRises =>
    rw [(Moves.pinenRises _).store_pending.1, s.pinenUp_keeps.1]
    exact wf
  | portCleared p =>
    obtain ⟨cs, e⟩ := s.portCleared_frame p
    rw [e]
    exact wf
  | resetRises cut | powerFalls cut => exact s.abort_store_wf cut wf
  | replayed =>
    rw [(State.compactionCheck_keeps _).1]
    exact wf
  | _ => exact wf

/-- Settles O53: one event of a command changes the array, each by an operation that keeps the canonical form. -/
theorem arrayStaysCanonical : Obligations.ArrayStaysCanonical := fun _ _ _ wf next =>
  exec_keeps (P := fun t => t.store.wf = true) next (State.abort_store_wf _ .during wf) fun reached =>
  reached.keeps (P := fun t => t.store.wf = true) wf (fun _ _ e => e.store_wf wf)
    (fun u w wf m => by obtain ⟨_, _, _, _, _, _, _, rfl⟩ := m.frame; exact wf)
    (fun u w wf a => by obtain ⟨_, _, _, rfl⟩ := a.frame; exact wf)
    (fun u w wf q => by obtain ⟨_, rfl⟩ := q.frame; exact wf)
    (fun u w wf m => by obtain ⟨_, _, _, _, _, _, _, _, _, rfl, -⟩ := m.frame; exact wf)

end Sys2Proof.Machine
end

section
/-! The rules of the Claim Unit and of a completion: grants (R45, R46), the revocation procedure (R55), and the steps of R103, each
with the whole state that it leaves. -/

namespace Sys2Proof.Machine

/-! ### Grants -/

section
variable {s : State}

/-- A grant, told by the entry and the waiter it is made to. -/
theorem State.nextGrant_some {t : State} (h : s.nextGrant = some t) :
    ∃ c w, s.freeClaim = some c ∧ s.waits.find? s.eligible = some w ∧ t = s.grantTo c w := by
  unfold State.nextGrant at h
  split at h
  · rename_i c w free found
    cases h
    exact ⟨c, w, free, found, rfl⟩
  · cases h

/-- Each grant takes one waiter off the list (R46). -/
theorem State.nextGrant_waits {t : State} (h : s.nextGrant = some t) : t.waits.length + 1 = s.waits.length := by
  obtain ⟨c, w, -, found, rfl⟩ := State.nextGrant_some h
  have waiting := List.mem_of_find?_eq_some found
  have positive := List.length_pos_of_mem waiting
  have erased : (s.grantTo c w).waits = s.waits.erase w := rfl
  rw [erased, List.length_erase_of_mem waiting]
  omega

/-- What every grant keeps, the grants of one moment keep. -/
theorem grantUpTo_keeps {P : State → Prop} (start : P s) (n : Nat)
    (grant : ∀ t c w, P t → t.freeClaim = some c → t.waits.find? t.eligible = some w → P (t.grantTo c w)) : P (grantUpTo n s) := by
  induction n generalizing s with
  | zero => exact start
  | succ n ih =>
    unfold grantUpTo
    cases next : s.nextGrant with
    | none => exact start
    | some t =>
      obtain ⟨c, w, free, found, rfl⟩ := State.nextGrant_some next
      exact ih (grant s c w start free found)

theorem State.grantAll_keeps {P : State → Prop} (start : P s)
    (grant : ∀ t c w, P t → t.freeClaim = some c → t.waits.find? t.eligible = some w → P (t.grantTo c w)) : P s.grantAll :=
  grantUpTo_keeps start _ grant

/-- The list of waiters bounds the grants. -/
theorem grantUpTo_enough (n : Nat) (h : s.waits.length ≤ n) : grantUpTo n s = s.grantAll := by
  induction n generalizing s with
  | zero => rw [State.grantAll, Nat.le_zero.mp h]
  | succ n ih =>
    cases next : s.nextGrant with
    | none =>
      have stays : ∀ m, grantUpTo m s = s := fun m => by cases m <;> simp [grantUpTo, next]
      rw [State.grantAll, stays, stays]
    | some t =>
      have shorter := State.nextGrant_waits next
      have rest := ih (s := t) (by omega)
      unfold State.grantAll at rest ⊢
      rw [← shorter]
      simp only [grantUpTo, next]
      exact rest

theorem State.grantAll_of_next {t : State} (h : s.nextGrant = some t) : s.grantAll = t.grantAll := by
  have shorter := State.nextGrant_waits h
  rw [State.grantAll, ← shorter]
  simp only [grantUpTo, h]
  rfl

theorem State.grantAll_of_none (h : s.nextGrant = none) : s.grantAll = s := by
  unfold State.grantAll
  cases s.waits.length <;> simp [grantUpTo, h]

theorem State.freeClaim_eq {c : ClaimIx} (free : s.claims[c] = none) (lowest : ∀ d < c, (s.claims[d]).isSome = true) :
    s.freeClaim = some c :=
  claimIxs_find _ c (by rw [free]; rfl) fun d lt => by
    rw [Option.isNone_eq_false_iff]
    exact lowest d lt

/-- The free entry is none of those in use. -/
theorem State.freeClaim_free {c : ClaimIx} (h : s.freeClaim = some c) : s.claims[c] = none := by
  simpa using List.find?_some h

end

/-- Settles O33: the grants of one moment are a first grant, to the lowest free entry and the earliest eligible waiter, and the
grants after it. -/
theorem grantsGoToTheEarliestEligibleWaiter : Obligations.GrantsGoToTheEarliestEligibleWaiter := by
  intro s eligible
  have asked : ∀ w, s.eligible w = true ↔ eligible w := s.eligible_iff
  refine ⟨fun c w l l' free lowest waits ready earlier => ?_, fun idle => State.grantAll_of_none ?_⟩
  · have found : s.waits.find? s.eligible = some w := by
      rw [waits, List.find?_append, List.find?_eq_none.mpr fun u hu => mt (asked u).mp (earlier u hu)]
      simp [(asked w).mpr ready]
    have next : s.nextGrant = some (s.grantTo c w) := by
      simp only [State.nextGrant, s.freeClaim_eq free lowest, found]
    have erased : s.waits.erase w = l ++ l' := by
      rw [waits, List.erase_append_right _ fun mem => earlier w mem ready, List.erase_cons_head]
    rw [State.grantAll_of_next next]
    simp only [State.grantTo, erased]
    rfl
  · unfold State.nextGrant
    rcases idle with full | waiting
    · rw [s.freeClaim_none full]
    · rw [List.find?_eq_none.mpr fun u hu => mt (asked u).mp (waiting u hu)]
      cases s.freeClaim <;> rfl

/-! ### The end of a claim -/

section
variable (s : State) (c : ClaimIx)

/-- The end of a session for a whole volume (R12). -/
theorem Volume.endSession_eq : Volume.endSession = fun x : Volume => { x with
    slotA := if x.slotA.state = .staging then { state := .stale, image := none } else x.slotA
    slotB := if x.slotB.state = .staging then { state := .stale, image := none } else x.slotB } := rfl

/-- The part in which an entry has been freed and the session on its volume has ended, before the grants (R12, R38). -/
def State.freed (cl : Claim) : State :=
  { s with claims := s.claims.set c none, vols := s.vols.set cl.vol ((s.vols[cl.vol]).map Volume.endSession) }

theorem State.freeEntry_some {cl : Claim} (h : s.claims[c] = some cl) : s.freeEntry c = (s.freed c cl).grantAll := by
  unfold State.freeEntry
  rw [h]
  rfl

theorem State.flightOf_iff : s.flightOf c = true ↔ ∃ e, s.engine = some e ∧ e.op.claim = some c := by
  unfold State.flightOf
  cases s.engine <;> simp

theorem State.adds_adds (p : Port) (rs rs' : List Response) : ({ s with hpi := s.adds p rs } : State).adds p rs' = s.adds p (rs ++ rs') := by
  simp [State.adds]

theorem State.adds_nil (p : Port) : s.adds p [] = s.hpi := by
  simp only [State.adds, List.append_nil]
  exact Vector.set_self s.hpi p

/-- What the revocation procedure answers to the holder (R55). -/
def revocationAnswers (cl : Claim) (n : Notice) (gone : List Op) (revoking : Bool) : List Response :=
  (if n = .silent then []
    else gone.map (fun o => ({ tag := o.tag, kind := o.kind, status := .cancelled, body := [] } : Response)))
  ++ match n with
    | .silent => []
    | .expired => [{ tag := cl.tag, kind := .claim, status := .expired, body := [] }]
    | .revoked => [{ tag := cl.tag, kind := .claim, status := .revoked, body := [] }]
    | .released tag => [{ tag := tag, kind := .release, status := .released, body := [cl.tag, if revoking then 1 else 0] }]

/-- The part in which a claim has lost its queued operations and its holder has been answered (R55). -/
def State.called (cl : Claim) (n : Notice) : State := { s with
  hpi := s.adds cl.holder (revocationAnswers cl n (s.fifos[cl.holder].filter (Op.boundTo c)) (s.flightOf c))
  fifos := s.fifos.set cl.holder (s.fifos[cl.holder].filter (fun o => !Op.boundTo c o)) }

/-- R55: the claim becomes REVOKING with an operation in flight, and is freed without one. -/
theorem State.revoke_some {cl : Claim} (n : Notice) (h : s.claims[c] = some cl) : s.revoke c n =
    if s.flightOf c then { s.called c cl n with claims := s.claims.set c (some { cl with
      state := .revoking, pending := cl.pending - (s.fifos[cl.holder].filter (Op.boundTo c)).length }) }
    else ((s.called c cl n).freed c cl).grantAll := by
  unfold State.revoke
  rw [h]
  dsimp only
  have answered : ∀ u : State, (if n = .silent then u else u.cancelled cl.holder (s.fifos[cl.holder].filter (Op.boundTo c))).notify
      cl n (s.flightOf c) = { u with
        hpi := u.adds cl.holder (revocationAnswers cl n (s.fifos[cl.holder].filter (Op.boundTo c)) (s.flightOf c)) } := by
    intro u
    cases n with
    | silent => simp [State.notify, revocationAnswers, State.adds_nil]
    | expired | revoked | released tag =>
      simp only [reduceCtorEq, if_false, State.cancelled_adds, State.notify, State.push_adds, State.adds_adds, revocationAnswers]
  rw [answered]
  split
  · rfl
  · rw [State.freeEntry_some _ c (cl := { cl with pending := cl.pending - (s.fifos[cl.holder].filter (Op.boundTo c)).length })
      (by simp [State.setClaim])]
    simp [State.freed, State.setClaim, State.called, State.setFifo]
    rfl

end

/-- Settles O32: the revocation procedure, its answers and its two ends, as `State.revoke_some` gives them. -/
theorem revocationProcedure : Obligations.RevocationProcedure := by
  intro s c cl n entry mine gone stopped inFlight notice answers
  have bound : ∀ d : Byte, d = (if s.flightOf c then 1 else 0) →
      answers d = revocationAnswers cl n (s.fifos[cl.holder].filter (Op.boundTo c)) (s.flightOf c) := by
    rintro d rfl
    cases n <;> rfl
  refine ⟨fun flight => ?_, fun idle => ?_⟩
  · have flight : s.flightOf c = true := (s.flightOf_iff c).mpr flight
    rw [State.revoke_some s c n entry, if_pos flight, bound 1 (by simp [flight])]
    rfl
  · have idle : s.flightOf c = false := by simpa using mt (s.flightOf_iff c).mp idle
    rw [State.revoke_some s c n entry, if_neg (by simp [idle]), bound 0 (by simp [idle])]
    rfl

/-! ### Completion -/

section
variable (s : State)

/-- The response of a completion, in the queue of its port (R103). -/
def State.completionQueues (e : InFlight) (st : Status) (body : List Byte) : Vector Hpi 4 :=
  match e.port with
  | none => s.hpi
  | some p => if e.discard then s.hpi else s.adds p [{ tag := e.op.tag, kind := e.op.kind, status := st, body := body }]

theorem State.respond_eq (e : InFlight) (st : Status) (body : List Byte) :
    s.respond e st body = { s with hpi := s.completionQueues e st body } := by
  unfold State.respond State.completionQueues
  cases e.port with
  | none => rfl
  | some p => cases e.discard <;> rfl

/-- Grants do not look at the engine. -/
theorem State.grantAll_engine (x : Option InFlight) : ({ s with engine := x } : State).grantAll = { s.grantAll with engine := x } := by
  have step : ∀ (n : Nat) (t : State), grantUpTo n ({ t with engine := x } : State) = { grantUpTo n t with engine := x } := by
    intro n
    induction n with
    | zero => exact fun _ => rfl
    | succ n ih =>
      intro t
      have next : ({ t with engine := x } : State).nextGrant = t.nextGrant.map (fun u => { u with engine := x }) := by
        have same : ({ t with engine := x } : State).eligible = t.eligible := rfl
        unfold State.nextGrant
        rw [same]
        change (match t.freeClaim, t.waits.find? t.eligible with
          | some c, some w => some (({ t with engine := x } : State).grantTo c w)
          | _, _ => none) = _
        cases t.freeClaim with
        | none => rfl
        | some c => cases t.waits.find? t.eligible <;> rfl
      simp only [grantUpTo, next]
      cases t.nextGrant with
      | none => rfl
      | some u => exact ih u
  exact step _ s

theorem State.lowerClaim_none {c : ClaimIx} (entry : s.claims[c] = none) : s.lowerClaim c = s := by
  unfold State.lowerClaim
  rw [entry]

theorem State.lowerClaim_held {c : ClaimIx} {cl : Claim} (entry : s.claims[c] = some cl) (held : cl.state = .held) :
    s.lowerClaim c = { s with claims := s.claims.set c (some { cl with pending := cl.pending - 1 }) } := by
  unfold State.lowerClaim
  rw [entry]
  dsimp only
  rw [held]
  rfl

theorem State.lowerClaim_revoking {c : ClaimIx} {cl : Claim} (entry : s.claims[c] = some cl) (revoking : cl.state = .revoking) :
    s.lowerClaim c = (s.freed c cl).grantAll := by
  unfold State.lowerClaim
  rw [entry]
  dsimp only
  rw [revoking]
  exact s.freeEntry_some c entry

theorem State.lowerClaim_engine (c : ClaimIx) (x : Option InFlight) :
    ({ s with engine := x } : State).lowerClaim c = { s.lowerClaim c with engine := x } := by
  cases entry : s.claims[c] with
  | none => rw [State.lowerClaim_none s entry, State.lowerClaim_none { s with engine := x } entry]
  | some cl =>
    cases state : cl.state with
    | held => rw [State.lowerClaim_held s entry state, State.lowerClaim_held { s with engine := x } entry state]
    | revoking =>
      rw [State.lowerClaim_revoking s entry state, State.lowerClaim_revoking { s with engine := x } entry state]
      exact (s.freed c cl).grantAll_engine x

/-- Steps 2 to 4 of R103, the engine idle first: the response and the claim do not look at the engine. -/
theorem State.finish_some {e : InFlight} (busy : s.engine = some e) (st : Status) (body : List Byte) : s.finish st body =
    match e.op.claim with
    | none => { s with hpi := s.completionQueues e st body, engine := none }
    | some c => ({ s with hpi := s.completionQueues e st body, engine := none } : State).lowerClaim c := by
  unfold State.finish
  rw [busy]
  dsimp only
  rw [State.respond_eq]
  cases e.op.claim with
  | none => rfl
  | some c => exact (State.lowerClaim_engine { s with hpi := s.completionQueues e st body } c none).symm

end

/-- Settles O34: the response is placed, then the claim lowered or freed, and the engine is idle. -/
theorem finishSteps : Obligations.FinishSteps := by
  intro s e st body busy queues stopped
  have answered : queues = s.completionQueues e st body := rfl
  refine ⟨fun free => ?_, fun c cl bound entry => ⟨fun held => ?_, fun revoking => ?_⟩⟩
  · rw [s.finish_some busy, free]
    rfl
  · rw [s.finish_some busy, bound]
    exact State.lowerClaim_held _ entry held
  · rw [s.finish_some busy, bound]
    refine (State.lowerClaim_revoking { s with hpi := queues, engine := none } entry revoking).trans ?_
    exact (({ s with hpi := queues } : State).freed c cl).grantAll_engine none

end Sys2Proof.Machine
end

section
/-! Response entries (R156 to R158): no step adds more to what a port holds and reserves than it has room for. -/

namespace Sys2Proof.Machine

/-- What counts against the entries of a port: held responses and reservations (R157, R158). -/
def State.load (s : State) (p : Port) : Nat := s.held p + s.reservations p

/-- What one Claim Table entry reserves for a port: a notice while it is HELD (R158). -/
def noticeWeight (p : Port) (x : Option Claim) : Nat :=
  match x with
  | some cl => if cl.holder = p ∧ cl.state = .held then 1 else 0
  | none => 0

/-- The notices reserved for a port (R158). -/
def State.notices (s : State) (p : Port) : Nat := claimIxs.countP (s.heldBy p)

section
variable (s : State) (p q : Port)

theorem State.load_eq : s.load p =
    s.hpi[p].queue.length + s.fifos[p].length + s.flightReservation p + s.notices p + 2 * s.waits.countP (fun w => w.port == p) := by
  simp only [State.load, State.held, State.reservations, State.notices]
  omega

theorem State.notices_eq : s.notices p =
    noticeWeight p s.claims[0] + noticeWeight p s.claims[1] + noticeWeight p s.claims[2] + noticeWeight p s.claims[3] := by
  have one : ∀ c : ClaimIx, (if s.heldBy p c then 1 else 0) = noticeWeight p s.claims[c] := fun c => by
    unfold State.heldBy noticeWeight
    cases s.claims[c] <;> simp
  have h0 := one 0; have h1 := one 1; have h2 := one 2; have h3 := one 3
  simp only [State.notices, claimIxs, List.countP_cons, List.countP_nil, h0, h1, h2, h3]
  change 0 + noticeWeight p s.claims[3] + noticeWeight p s.claims[2] + noticeWeight p s.claims[1] + noticeWeight p s.claims[0] = _
  omega

/-- The notices after one entry is replaced. -/
theorem State.notices_set (c : ClaimIx) (x : Option Claim) (t : State) (h : t.claims = s.claims.set c x) :
    t.notices p + noticeWeight p s.claims[c] = s.notices p + noticeWeight p x := by
  rw [State.notices_eq, State.notices_eq, h]
  match c with
  | 0 => simp; omega
  | 1 => simp; omega
  | 2 => simp; omega
  | 3 => simp; omega

theorem State.adds_queue (rs : List Response) :
    (s.adds p rs)[q].queue.length = s.hpi[q].queue.length + if p = q then rs.length else 0 := by
  by_cases e : p = q
  · subst e
    simp [State.adds]
  · have : p.val ≠ q.val := fun h => e (Fin.ext h)
    simp [State.adds, e, Vector.getElem_set_ne, this]

theorem fifo_set_length (fs : Vector (List Op) 4) (ops : List Op) :
    ((fs.set p ops)[q]).length = if p = q then ops.length else fs[q].length := by
  by_cases e : p = q
  · subst e
    simp
  · have : p.val ≠ q.val := fun h => e (Fin.ext h)
    simp [e, Vector.getElem_set_ne, this]

theorem State.load_push (r : Response) : (s.push p r).load q = s.load q + if p = q then 1 else 0 := by
  rw [State.push_adds, State.load_eq, State.load_eq]
  dsimp only
  rw [State.adds_queue]
  simp only [List.length_singleton]
  have same : State.flightReservation { s with hpi := s.adds p [r] } q = s.flightReservation q
    ∧ State.notices { s with hpi := s.adds p [r] } q = s.notices q := ⟨rfl, rfl⟩
  omega

/-- A grant turns the two reservations of a wait into GRANTED and the notice of the claim (R46, R158). -/
theorem State.load_grantTo (c : ClaimIx) (w : Waiter) (free : s.claims[c] = none) (waiting : w ∈ s.waits) :
    (s.grantTo c w).load q = s.load q := by
  unfold State.grantTo
  rw [State.load_push, State.load_eq, State.load_eq]
  have claimed := s.notices_set q c (some (newClaim s w.vol w.port w.tag)) (State.setClaim { s with waits := s.waits.erase w } c
    (some (newClaim s w.vol w.port w.tag))) rfl
  rw [free] at claimed
  have erased : s.waits.countP (fun w => w.port == q)
      = (s.waits.erase w).countP (fun w => w.port == q) + if w.port = q then 1 else 0 := by
    rw [(List.perm_cons_erase waiting).countP_eq, List.countP_cons]
    simp
  have same : State.flightReservation (State.setClaim { s with waits := s.waits.erase w } c
      (some (newClaim s w.vol w.port w.tag))) q = s.flightReservation q := rfl
  simp only [noticeWeight, newClaim, and_true, State.setClaim_hpi, State.setClaim_fifos, State.setClaim_waits] at claimed erased same ⊢
  change _ + _ + State.flightReservation _ q + State.notices _ q + _ + _ = _
  change State.notices _ q + 0 = _ at claimed
  rw [erased]
  split at claimed
  · simp_all
    omega
  · simp_all

theorem State.load_grantAll : s.grantAll.load q = s.load q :=
  s.grantAll_keeps (P := fun t => t.load q = s.load q) rfl fun t c w same free found =>
    (t.load_grantTo q c w (State.freeClaim_free free) (List.mem_of_find?_eq_some found)).trans same

/-- A freed entry leaves its notice, if it was HELD (R38). -/
theorem State.load_freed (c : ClaimIx) (cl : Claim) : (s.freed c cl).load q + noticeWeight q s.claims[c] = s.load q := by
  have freed := s.notices_set q c none (s.freed c cl) rfl
  have same : (s.freed c cl).flightReservation q = s.flightReservation q := rfl
  rw [State.load_eq, State.load_eq, same]
  simp only [noticeWeight, State.freed] at freed ⊢
  omega

/-- A revocation answers each queued operation with the entry reserved for it, and gives at most one notice (R55, R158). -/
theorem State.load_called (c : ClaimIx) (cl : Claim) (n : Notice) :
    (s.called c cl n).load q ≤ s.load q + if cl.holder = q then 1 else 0 := by
  have answers : (revocationAnswers cl n (s.fifos[cl.holder].filter (Op.boundTo c)) (s.flightOf c)).length
      ≤ (s.fifos[cl.holder].filter (Op.boundTo c)).length + 1 := by
    cases n <;> simp [revocationAnswers]
  have parted : (s.fifos[cl.holder].filter (Op.boundTo c)).length + (s.fifos[cl.holder].filter (fun o => !Op.boundTo c o)).length
      = s.fifos[cl.holder].length := by
    simpa [List.countP_eq_length_filter] using
      (List.length_eq_countP_add_countP (l := s.fifos[cl.holder]) (Op.boundTo c)).symm
  have same : (s.called c cl n).flightReservation q = s.flightReservation q ∧ (s.called c cl n).notices q = s.notices q :=
    ⟨rfl, rfl⟩
  rw [State.load_eq, State.load_eq, same.1, same.2]
  simp only [State.called]
  rw [State.adds_queue, fifo_set_length]
  by_cases e : cl.holder = q
  · subst e
    simp only [if_true]
    omega
  · simp only [e, if_false]
    omega

/-- R55: the notice of a HELD claim takes the entry reserved for it. -/
theorem State.load_revoke (c : ClaimIx) (cl : Claim) (n : Notice) (entry : s.claims[c] = some cl) (held : cl.state = .held) :
    (s.revoke c n).load q ≤ s.load q := by
  have called := s.load_called q c cl n
  have weight : noticeWeight q s.claims[c] = if cl.holder = q then 1 else 0 := by simp [noticeWeight, entry, held]
  rw [s.revoke_some c n entry]
  split
  · have revoking := (s.called c cl n).notices_set q c (some { cl with
      state := .revoking, pending := cl.pending - (s.fifos[cl.holder].filter (Op.boundTo c)).length }) { s.called c cl n with
        claims := s.claims.set c (some { cl with
          state := .revoking, pending := cl.pending - (s.fifos[cl.holder].filter (Op.boundTo c)).length }) } rfl
    have gone : noticeWeight q (some { cl with
      state := .revoking, pending := cl.pending - (s.fifos[cl.holder].filter (Op.boundTo c)).length }) = 0 := by simp [noticeWeight]
    have before : noticeWeight q (s.called c cl n).claims[c] = noticeWeight q s.claims[c] := rfl
    rw [State.load_eq] at called ⊢
    rw [gone, before, weight] at revoking
    have same : State.flightReservation { s.called c cl n with
        claims := s.claims.set c (some { cl with
          state := .revoking, pending := cl.pending - (s.fifos[cl.holder].filter (Op.boundTo c)).length }) } q
      = (s.called c cl n).flightReservation q := rfl
    rw [same]
    dsimp only at revoking ⊢
    omega
  · have freed := (s.called c cl n).load_freed q c cl
    change _ + noticeWeight q s.claims[c] = _ at freed
    rw [State.load_grantAll]
    omega

theorem State.load_lowerClaim (c : ClaimIx) : (s.lowerClaim c).load q ≤ s.load q := by
  cases entry : s.claims[c] with
  | none => rw [s.lowerClaim_none entry]
  | some cl =>
    cases state : cl.state with
    | held =>
      have lowered := s.notices_set q c (some { cl with pending := cl.pending - 1 })
        { s with claims := s.claims.set c (some { cl with pending := cl.pending - 1 }) } rfl
      rw [entry] at lowered
      change _ + noticeWeight q (some cl) = _ + noticeWeight q (some cl) at lowered
      rw [s.lowerClaim_held entry state, State.load_eq, State.load_eq]
      have same : State.flightReservation { s with claims := s.claims.set c (some { cl with pending := cl.pending - 1 }) } q
        = s.flightReservation q := rfl
      dsimp only
      omega
    | revoking =>
      have freed := s.load_freed q c cl
      rw [s.lowerClaim_revoking entry state, State.load_grantAll]
      omega

/-- R103: the completion response takes the entry reserved for the operation in flight. -/
theorem State.load_finish (st : Status) (body : List Byte) : (s.finish st body).load q ≤ s.load q := by
  cases busy : s.engine with
  | none => simp only [State.finish, busy]; exact le_rfl
  | some e =>
    have ended : State.load { s with hpi := s.completionQueues e st body, engine := none } q ≤ s.load q := by
      rw [State.load_eq, State.load_eq]
      have reserved : s.flightReservation q = if e.port = some q ∧ e.discard = false then 1 else 0 := by
        simp only [State.flightReservation, busy]
      have queues : (s.completionQueues e st body)[q].queue.length
          = s.hpi[q].queue.length + if e.port = some q ∧ e.discard = false then 1 else 0 := by
        unfold State.completionQueues
        cases port : e.port with
        | none => simp
        | some p =>
          cases e.discard with
          | true => simp
          | false => simp only [Bool.false_eq_true, if_false, State.adds_queue]; simp
      have idle : State.flightReservation { s with hpi := s.completionQueues e st body, engine := none } q = 0 := rfl
      have same : State.notices { s with hpi := s.completionQueues e st body, engine := none } q = s.notices q := rfl
      dsimp only
      rw [idle, same, queues, reserved]
      omega
    rw [s.finish_some busy]
    split
    · exact ended
    · exact (State.load_lowerClaim _ q _).trans ended

theorem State.told_queue (st : Status) (ws : List Waiter) :
    (s.told st ws)[q].queue.length = s.hpi[q].queue.length + ws.countP (fun w => w.port == q) := by
  simp [State.told, List.countP_eq_length_filter]

/-- R47: the answer of a removed waiter takes one of its two reservations. -/
theorem State.load_removeWaiters (f : Waiter → Bool) (st : Status) : (s.removeWaiters f st).load q ≤ s.load q := by
  have parted : s.waits.countP (fun w => w.port == q)
      = (s.waits.filter f).countP (fun w => w.port == q) + (s.waits.filter (fun w => !f w)).countP (fun w => w.port == q) := by
    induction s.waits with
    | nil => rfl
    | cons w rest ih =>
      simp only [List.filter_cons, List.countP_cons]
      cases f w
      · simp only [Bool.not_false, if_true, Bool.false_eq_true, if_false, List.countP_cons]
        omega
      · simp only [Bool.not_true, if_true, Bool.false_eq_true, if_false, List.countP_cons]
        omega
  rw [State.removeWaiters_told, State.load_eq, State.load_eq]
  have same : State.flightReservation
      { s with waits := s.waits.filter (fun w => !f w), hpi := s.told st (s.waits.filter f) } q = s.flightReservation q
    ∧ State.notices { s with waits := s.waits.filter (fun w => !f w), hpi := s.told st (s.waits.filter f) } q = s.notices q :=
    ⟨rfl, rfl⟩
  dsimp only
  rw [State.told_queue, same.1, same.2, parted]
  omega

/-- The count of one port and the same identities of claims give the same load. -/
theorem State.load_onClaim (c : ClaimIx) (f : Claim → Claim) (same : ∀ cl, (f cl).identity = cl.identity) :
    (s.onClaim c f).load q = s.load q := by
  rw [State.load, State.load, s.reservations_onClaim c f same]
  rfl

end

end Sys2Proof.Machine
end

section
/-! The modes in which the part holds nothing of volumes (R7, R37, R59, R88, R130), and the idle engine (R90). -/

namespace Sys2Proof.Machine

/-- The part holds no volume, view, claim, wait or journal sector. -/
structure State.Bare (s : State) : Prop where
  vols : s.vols = Vector.replicate 32 none
  views : s.views = Vector.replicate 4 (Vector.replicate 4 none)
  claims : s.claims = Vector.replicate 4 none
  waits : s.waits = []
  journal : s.journal = none

/-- Only FORMAT and PROVISION wait or are in flight (R130). -/
structure State.FormatOnly (s : State) : Prop where
  queued : ∀ p : Port, ∀ o ∈ s.fifos[p], o.kind = .format ∨ o.kind = .provision
  inFlight : ∀ e ∈ s.engine, e.op.kind = .format ∨ e.op.kind = .provision

/-- Nothing waits and nothing is in flight (R88). -/
structure State.AtRest (s : State) : Prop where
  fifos : s.fifos = Vector.replicate 4 []
  slot : s.compactSlot = false
  engine : s.engine = none

/-- The part has no power or is under RESET. -/
def State.down (s : State) : Prop := s.powered = false ∨ s.resetLine = true

section
variable {s t : State}

theorem State.modeLaw_iff : s.modeLaw ↔ (s.down → s.mode = .starting) ∧ (s.mode = .starting → s.Bare ∧ s.AtRest)
    ∧ (s.mode = .unformatted → s.Bare ∧ s.FormatOnly) := by
  constructor
  · rintro ⟨⟨down, starting⟩, unformatted⟩
    refine ⟨down, fun m => ?_, fun m => ?_⟩
    · obtain ⟨d, v, c, w, f, b, e, j⟩ := starting m
      exact ⟨⟨d, v, c, w, j⟩, f, b, e⟩
    · obtain ⟨d, v, c, w, j, q, e⟩ := unformatted m
      exact ⟨⟨d, v, c, w, j⟩, q, e⟩
  · rintro ⟨down, starting, unformatted⟩
    refine ⟨⟨down, fun m => ?_⟩, fun m => ?_⟩
    · obtain ⟨⟨d, v, c, w, j⟩, f, b, e⟩ := starting m
      exact ⟨d, v, c, w, f, b, e, j⟩
    · obtain ⟨⟨d, v, c, w, j⟩, q, e⟩ := unformatted m
      exact ⟨d, v, c, w, j, q, e⟩

theorem State.unformattedLaw_iff : s.unformattedLaw ↔ (s.mode = .unformatted → s.Bare ∧ s.FormatOnly) := by
  constructor
  · intro law m
    obtain ⟨d, v, c, w, j, q, e⟩ := law m
    exact ⟨⟨d, v, c, w, j⟩, q, e⟩
  · intro law m
    obtain ⟨⟨d, v, c, w, j⟩, q, e⟩ := law m
    exact ⟨d, v, c, w, j, q, e⟩

theorem State.Bare.vol (h : s.Bare) (v : Vol) : s.vols[v] = none := by simp [h.vols]

theorem State.Bare.view (h : s.Bare) (p : Port) (i : Handle) : s.views[p][i] = none := by simp [h.views]

theorem State.Bare.claim (h : s.Bare) (c : ClaimIx) : s.claims[c] = none := by simp [h.claims]

theorem State.Bare.grantAll (h : s.Bare) : s.grantAll = s := by
  rw [State.grantAll, h.waits]
  rfl

/-- Nothing of volumes is left to finish an operation with: its response, and an idle engine. -/
theorem State.Bare.finish (h : s.Bare) (st : Status) (body : List Byte) :
    ∃ q, s.finish st body = { s with hpi := q, engine := none } := by
  cases busy : s.engine with
  | none =>
    refine ⟨s.hpi, ?_⟩
    simp only [State.finish, busy]
    rw [← busy]
  | some e =>
    rw [s.finish_some busy]
    split
    · exact ⟨_, rfl⟩
    · exact ⟨_, State.lowerClaim_none _ (h.claim _)⟩

/-- Without volumes a move changes what ports hold and a suspend count at most. -/
theorem Move.of_bare (m : Move s t) (bare : s.Bare) :
    ∃ q f, t = { s with hpi := q, engine := s.engine.map f } ∧ ∀ e, (f e).op = e.op := by
  have same : s.engine = s.engine.map id := by simp
  have noClaims : ∀ (c : ClaimIx) (f : Claim → Claim), s.claims.set c ((s.claims[c]).map f) = s.claims := fun c f => by
    rw [bare.claim c, Option.map_none, ← bare.claim c]
    exact Vector.set_self s.claims c
  cases m with
  | outcome p o => exact ⟨_, id, by rw [← same]; rfl, fun _ => rfl⟩
  | select p b => exact ⟨_, id, by rw [← same]; rfl, fun _ => rfl⟩
  | openFrame p => exact ⟨_, id, by rw [← same]; rfl, fun _ => rfl⟩
  | closeFrame p out => exact ⟨_, id, by rw [← same]; rfl, fun _ => rfl⟩
  | pop p => exact ⟨_, id, by rw [← same]; rfl, fun _ => rfl⟩
  | receive p wire n =>
    unfold State.receive
    split
    · exact ⟨s.hpi, id, by rw [← same], fun _ => rfl⟩
    · split
      · exact ⟨_, id, by rw [← same]; rfl, fun _ => rfl⟩
      · exact ⟨s.hpi, id, by rw [← same], fun _ => rfl⟩
  | claimFields c f => exact ⟨s.hpi, id, by rw [← same, State.onClaim, State.setClaim, noClaims c f], fun _ => rfl⟩
  | suspend => exact ⟨s.hpi, _, rfl, fun _ => rfl⟩
  | openView p h v x sl used => rw [bare.vol v] at used; cases used
  | closeView p h =>
    refine ⟨s.hpi, id, ?_, fun _ => rfl⟩
    rw [← same, State.setView, ← bare.view p h, Vector.set_self (s.views[p]) h, Vector.set_self s.views p]
  | withdraw r p w waits => rw [bare.waits] at waits; cases waits
  | revoke c n cl entry => rw [bare.claim c] at entry; cases entry
  | grants => exact ⟨s.hpi, id, by rw [← same, bare.grantAll], fun _ => rfl⟩

/-- Without volumes no claim is granted and no wait begins: a request is answered. -/
theorem Ask.of_bare (a : Ask s t) (bare : s.Bare) : ∃ q, t = { s with hpi := q } := by
  cases a with
  | answer => exact ⟨_, rfl⟩
  | claimNow r p v c x room used => rw [bare.vol v] at used; cases used
  | claimWaits r p v x room used => rw [bare.vol v] at used; cases used

theorem FormatOnly.of_map {q : Vector Hpi 4} {f : InFlight → InFlight} (same : ∀ e, (f e).op = e.op) (h : s.FormatOnly) :
    ({ s with hpi := q, engine := s.engine.map f } : State).FormatOnly where
  queued := h.queued
  inFlight e he := by
    obtain ⟨e', busy, rfl⟩ := Option.map_eq_some_iff.mp he
    rw [same]
    exact h.inFlight e' busy

theorem Move.modeLaw (m : Move s t) (law : s.modeLaw) : t.modeLaw := by
  rw [State.modeLaw_iff] at law ⊢
  obtain ⟨down, starting, unformatted⟩ := law
  have frame := m.frame
  refine ⟨?_, fun mode => ?_, fun mode => ?_⟩
  · obtain ⟨_, _, _, _, _, _, _, rfl⟩ := frame
    exact down
  · obtain ⟨bare, rest⟩ := starting (by obtain ⟨_, _, _, _, _, _, _, rfl⟩ := frame; exact mode)
    obtain ⟨q, f, rfl, -⟩ := m.of_bare bare
    exact ⟨⟨bare.vols, bare.views, bare.claims, bare.waits, bare.journal⟩, rest.fifos, rest.slot, by simp [rest.engine]⟩
  · obtain ⟨bare, only⟩ := unformatted (by obtain ⟨_, _, _, _, _, _, _, rfl⟩ := frame; exact mode)
    obtain ⟨q, f, rfl, same⟩ := m.of_bare bare
    exact ⟨⟨bare.vols, bare.views, bare.claims, bare.waits, bare.journal⟩, FormatOnly.of_map same only⟩

theorem Move.unformattedLaw (m : Move s t) (law : s.unformattedLaw) : t.unformattedLaw := by
  rw [State.unformattedLaw_iff] at law ⊢
  intro mode
  obtain ⟨bare, only⟩ := law (by obtain ⟨_, _, _, _, _, _, _, rfl⟩ := m.frame; exact mode)
  obtain ⟨q, f, rfl, same⟩ := m.of_bare bare
  exact ⟨⟨bare.vols, bare.views, bare.claims, bare.waits, bare.journal⟩, FormatOnly.of_map same only⟩

theorem Ask.modeLaw (a : Ask s t) (law : s.modeLaw) : t.modeLaw := by
  rw [State.modeLaw_iff] at law ⊢
  obtain ⟨down, starting, unformatted⟩ := law
  have frame := a.frame
  refine ⟨?_, fun mode => ?_, fun mode => ?_⟩
  · obtain ⟨_, _, _, rfl⟩ := frame
    exact down
  · obtain ⟨bare, rest⟩ := starting (by obtain ⟨_, _, _, rfl⟩ := frame; exact mode)
    obtain ⟨q, rfl⟩ := a.of_bare bare
    exact ⟨⟨bare.vols, bare.views, bare.claims, bare.waits, bare.journal⟩, rest.fifos, rest.slot, rest.engine⟩
  · obtain ⟨bare, only⟩ := unformatted (by obtain ⟨_, _, _, rfl⟩ := frame; exact mode)
    obtain ⟨q, rfl⟩ := a.of_bare bare
    exact ⟨⟨bare.vols, bare.views, bare.claims, bare.waits, bare.journal⟩, only.queued, only.inFlight⟩

theorem Ask.unformattedLaw (a : Ask s t) (law : s.unformattedLaw) : t.unformattedLaw := by
  rw [State.unformattedLaw_iff] at law ⊢
  intro mode
  obtain ⟨bare, only⟩ := law (by obtain ⟨_, _, _, rfl⟩ := a.frame; exact mode)
  obtain ⟨q, rfl⟩ := a.of_bare bare
  exact ⟨⟨bare.vols, bare.views, bare.claims, bare.waits, bare.journal⟩, only.queued, only.inFlight⟩

theorem Framed.modeLaw (h : Framed s t) (law : s.modeLaw) : t.modeLaw :=
  h.keeps law (fun _ _ law m => m.modeLaw law) (fun _ _ law a => a.modeLaw law)

/-- A queued operation fits the mode (R130). -/
theorem Queue.modeLaw (q : Queue s t) (law : s.modeLaw) : t.modeLaw := by
  rw [State.modeLaw_iff] at law ⊢
  obtain ⟨down, starting, unformatted⟩ := law
  obtain ⟨p, o, room, short, begun, fits⟩ := q
  refine ⟨down, fun mode => absurd mode begun, fun mode => ?_⟩
  obtain ⟨bare, only⟩ := unformatted mode
  refine ⟨⟨bare.vols, bare.views, bare.claims, bare.waits, bare.journal⟩, fun q x mem => ?_, only.inFlight⟩
  by_cases e : p = q
  · subst e
    simp only [State.setFifo_fifos, Fin.getElem_fin, Vector.getElem_set_self, List.mem_append, List.mem_singleton] at mem
    rcases mem with mem | rfl
    · exact only.queued p x mem
    · exact fits.unformatted mode
  · have : p.val ≠ q.val := fun h => e (Fin.ext h)
    simp only [State.setFifo_fifos, Fin.getElem_fin, Vector.getElem_set_ne _ _ this] at mem
    exact only.queued q x mem

/-- A part in NORMAL or DEGRADED, with power and out of RESET. -/
theorem State.modeLaw_of_serving (up : ¬s.down) (mode : s.mode = .normal ∨ s.mode = .degraded) : s.modeLaw := by
  rw [State.modeLaw_iff]
  refine ⟨fun down => absurd down up, fun m => ?_, fun m => ?_⟩ <;> simp [m] at mode

/-- What a busy engine says of the mode. -/
theorem State.modeLaw.busy (law : s.modeLaw) {e : InFlight} (busy : s.engine = some e) : ¬s.down ∧
    ((s.mode = .normal ∨ s.mode = .degraded)
      ∨ s.mode = .unformatted ∧ s.Bare ∧ s.FormatOnly ∧ (e.op.kind = .format ∨ e.op.kind = .provision)) := by
  rw [State.modeLaw_iff] at law
  obtain ⟨down, starting, unformatted⟩ := law
  have begun : s.mode ≠ .starting := fun m => by
    rw [(starting m).2.engine] at busy
    cases busy
  refine ⟨fun d => begun (down d), ?_⟩
  cases mode : s.mode with
  | starting => exact absurd mode begun
  | unformatted =>
    obtain ⟨bare, only⟩ := unformatted mode
    exact .inr ⟨rfl, bare, only, only.inFlight e busy⟩
  | normal => exact .inl (.inl rfl)
  | degraded => exact .inl (.inr rfl)

/-- A change that leaves the lines, the mode and, where there is no volume, what is there. -/
theorem State.modeLaw.change (law : s.modeLaw) (lines : t.down → s.down) (mode : t.mode = s.mode)
    (starting : s.mode = .starting → s.Bare → s.AtRest → t.Bare ∧ t.AtRest)
    (unformatted : s.mode = .unformatted → s.Bare → s.FormatOnly → t.Bare ∧ t.FormatOnly) : t.modeLaw := by
  rw [State.modeLaw_iff] at law ⊢
  obtain ⟨down, start, unf⟩ := law
  rw [mode]
  exact ⟨fun d => down (lines d), fun m => starting m (start m).1 (start m).2, fun m => unformatted m (unf m).1 (unf m).2⟩

theorem State.modeLaw.finish (law : s.modeLaw) (st : Status) (body : List Byte) : (s.finish st body).modeLaw := by
  have frame := s.finish_frame st body
  refine law.change (fun d => ?_) ?_ (fun _ bare rest => ?_) (fun _ bare only => ?_)
  · obtain ⟨_, _, _, _, e, -⟩ := frame
    rw [e] at d
    exact d
  · obtain ⟨_, _, _, _, e, -⟩ := frame
    rw [e]
  · obtain ⟨q, e⟩ := bare.finish st body
    rw [e]
    exact ⟨⟨bare.vols, bare.views, bare.claims, bare.waits, bare.journal⟩, rest.fifos, rest.slot, rfl⟩
  · obtain ⟨q, e⟩ := bare.finish st body
    rw [e]
    exact ⟨⟨bare.vols, bare.views, bare.claims, bare.waits, bare.journal⟩, only.queued, fun _ busy => nomatch busy⟩

end

end Sys2Proof.Machine
end

section
/-! Every event and every pick keeps the laws of the modes (R59, R88, R121, R130). -/

namespace Sys2Proof.Machine

section
variable {s t : State} {b : Bool}

/-- The operation in flight, changed but for what it was requested to do. -/
theorem State.modeLaw.onFlight (law : s.modeLaw) {f : InFlight → InFlight} (same : ∀ e, (f e).op = e.op) :
    (s.onFlight f).modeLaw :=
  law.change id rfl
    (fun _ bare rest => ⟨⟨bare.vols, bare.views, bare.claims, bare.waits, bare.journal⟩, rest.fifos, rest.slot, by simp [rest.engine]⟩)
    (fun _ bare only => ⟨⟨bare.vols, bare.views, bare.claims, bare.waits, bare.journal⟩, FormatOnly.of_map (q := s.hpi) same only⟩)

/-- The array, the counter of skipped entries and the row are of no volume. -/
theorem State.modeLaw.setStore (law : s.modeLaw) (st : Store) (n : Nat) (r : Row) (pv : ProvState) (vl : Values) :
    ({ s with store := st, skipped := n, row := r, prov := pv, values := vl } : State).modeLaw :=
  law.change id rfl
    (fun _ bare rest => ⟨⟨bare.vols, bare.views, bare.claims, bare.waits, bare.journal⟩, rest.fifos, rest.slot, rest.engine⟩)
    (fun _ bare only => ⟨⟨bare.vols, bare.views, bare.claims, bare.waits, bare.journal⟩, only.queued, only.inFlight⟩)

/-- What an operation other than FORMAT and PROVISION leaves, in NORMAL or DEGRADED. -/
theorem State.modeLaw.ofServing (law : s.modeLaw) {e : InFlight} (busy : s.engine = some e)
    (other : e.op.kind ≠ .format ∧ e.op.kind ≠ .provision) (lines : t.down → s.down)
    (mode : t.mode = s.mode ∨ t.mode = .degraded) : t.modeLaw := by
  obtain ⟨up, serving | ⟨-, -, -, kind⟩⟩ := law.busy busy
  · refine State.modeLaw_of_serving (fun d => up (lines d)) ?_
    rcases mode with mode | mode
    · rwa [mode]
    · exact .inr mode
  · exact absurd kind (not_or.mpr other)

/-- With a current journal sector the part is in NORMAL or DEGRADED. -/
theorem State.modeLaw.ofJournal (law : s.modeLaw) {e : InFlight} (busy : s.engine = some e) {j : Journal}
    (journal : s.journal = some j) (lines : t.down → s.down) (mode : t.mode = s.mode ∨ t.mode = .degraded) : t.modeLaw := by
  obtain ⟨up, serving | ⟨-, bare, -⟩⟩ := law.busy busy
  · refine State.modeLaw_of_serving (fun d => up (lines d)) ?_
    rcases mode with mode | mode
    · rwa [mode]
    · exact .inr mode
  · rw [bare.journal] at journal
    cases journal

/-- The state of a part that a reset or a power-on has reached (R7, R23, R59, R88). -/
theorem State.modeLaw_of_cleared {pw rs : Bool} {n : Nat} {st : Store} :
    ({ s.clearVolatile with powered := pw, resetLine := rs, skipped := n, store := st } : State).modeLaw := by
  rw [State.modeLaw_iff]
  exact ⟨fun _ => rfl, fun _ => ⟨⟨rfl, rfl, rfl, rfl, rfl⟩, rfl, rfl, rfl⟩, fun mode => nomatch mode⟩

theorem State.setMapEntry_lines (c : Option ClaimIx) (i : Nat) (m : MapEntry) :
    ((s.setMapEntry c i m).down → s.down) ∧ (s.setMapEntry c i m).mode = s.mode := by
  obtain ⟨cs, e⟩ := s.setMapEntry_frame c i m
  rw [e]
  exact ⟨id, rfl⟩

theorem Moves.modeLaw (ms : Moves s t) (law : s.modeLaw) : t.modeLaw := ms.keeps law fun _ _ law m => m.modeLaw law

/-- The entry under program belongs to the operation in flight. -/
theorem State.recordUnder_some {k : Kind} {e : InFlight} {en : JEntry} {j : Journal} (h : s.recordUnder k = some (e, en, j)) :
    s.engine = some e ∧ e.op.kind = k ∧ s.journal = some j ∧ e.own = none ∧ e.entry = some en ∧ ∃ js, e.phase = .journaling js := by
  unfold State.recordUnder at h
  split at h
  · rename_i e' j' flight journal
    obtain ⟨busy, kind⟩ := State.flightIs_some flight
    split at h
    · rename_i js en' phase entry own
      cases h
      exact ⟨busy, kind, journal, own, entry, js, phase⟩
    · cases h
  · cases h

/-- R87: an emptied FIFO lowers the pending counts of claims and changes nothing else in them. -/
theorem State.dropFifo_claims (p : Port) (c : ClaimIx) :
    ∃ g : Claim → Nat, (s.dropFifo p).claims[c] = (s.claims[c]).map (fun cl => { cl with pending := g cl }) := by
  unfold State.dropFifo
  generalize s.fifos[p] = ops
  have all : ∀ u : State, ∃ g : Claim → Nat,
      (ops.foldl State.unbind u).claims[c] = (u.claims[c]).map (fun cl => { cl with pending := g cl }) := by
    induction ops with
    | nil => exact fun u => ⟨Claim.pending, by simp⟩
    | cons o rest ih =>
      intro u
      obtain ⟨g, others⟩ := ih (u.unbind o)
      rw [List.foldl_cons, others]
      unfold State.unbind
      split
      · exact ⟨g, rfl⟩
      · rename_i d _
        rw [State.onClaim_get]
        split
        · exact ⟨fun cl => g { cl with pending := cl.pending - 1 }, by cases u.claims[c] <;> rfl⟩
        · exact ⟨g, rfl⟩
  exact all (s.setFifo p [])

theorem State.portCleared_claims (p : Port) (c : ClaimIx) :
    ∃ g : Claim → Nat, (s.portCleared p).claims[c] = (s.claims[c]).map (fun cl => { cl with pending := g cl }) :=
  State.dropFifo_claims (s := (s.setHpi p (Hpi.cleared true s.hpi[p].sel)).closeViews p) p c

theorem State.Bare.portCleared (bare : s.Bare) (p : Port) : (s.portCleared p).Bare := by
  have claims : (s.portCleared p).claims = Vector.replicate 4 none := by
    refine Vector.ext fun i lt => ?_
    obtain ⟨g, e⟩ := s.portCleared_claims p ⟨i, lt⟩
    rw [bare.claim] at e
    simpa using e
  obtain ⟨cs, e⟩ := s.portCleared_frame p
  rw [e] at claims ⊢
  refine ⟨bare.vols, ?_, claims, by simp [bare.waits], bare.journal⟩
  dsimp only
  rw [bare.views]
  refine Vector.ext fun i lt => ?_
  simp

theorem Event.modeLaw (h : Event s b t) (law : s.modeLaw) : t.modeLaw := by
  cases h with
  | finished st body => exact law.finish st body
  | eraseEnds e n i m store st body busy kind | programEnds e n pg i m store st body busy kind =>
    obtain ⟨lines, mode⟩ := State.setMapEntry_lines (s := { s with store := store }) e.op.claim i m
    exact (law.ofServing busy (by simp [kind]) lines (.inl mode)).finish st body
  | verified e v x sl len crc u busy kind phase staged length begins =>
    obtain ⟨j, -, -, rfl⟩ := beginRecord_runs begins
    exact law.onFlight fun _ => rfl
  | entry k e en j st body under inside =>
    obtain ⟨busy, -, journal, -⟩ := State.recordUnder_some under
    obtain ⟨d, ws, cs, fs, q, effect⟩ := entryEffect_frame k e (s.journalled en j)
    obtain ⟨slot, checked⟩ := State.compactionCheck_frame { s with
      store := s.store.program (positionBase j.sector j.append) (entryBytes en)
      journal := some { j with append := j.append + 1, seq := j.seq + 1 }
      vols := applied en.content s.vols }
    refine State.modeLaw.finish (law.ofJournal busy journal ?_ (.inl ?_)) st body
    · rw [effect, State.journalled, checked]; exact id
    · rw [effect, State.journalled, checked]
  | retried e js j busy phase own journal => exact law.ofJournal busy journal id (.inl rfl)
  | lost e js j busy phase own journal =>
    obtain ⟨d, cleared⟩ := clearDeleting_frame e { s.passedOver j with mode := .degraded }
    refine State.modeLaw.finish (law.ofJournal busy journal ?_ (.inr ?_)) _ _
    · rw [cleared]; exact id
    · rw [cleared]
  | beginLost e busy kind st body =>
    exact State.modeLaw.finish (law.ofServing (t := { s with mode := .degraded }) busy (by simp [kind]) id (.inr rfl)) st body
  | ownRetried e js o =>
    exact State.modeLaw.onFlight (law.setStore (s.store.spoilPosition js o.pos) (countSkip s.skipped) s.row s.prov s.values)
      fun _ => rfl
  | ownLost e js o m st body busy phase own inside mode =>
    refine State.modeLaw.finish ?_ st body
    split at mode
    · rename_i kind
      exact law.ofServing busy (by simp [kind]) id (.inr mode)
    · rw [mode]
      exact law.setStore (s.store.spoilPosition js o.pos) (countSkip s.skipped) s.row s.prov s.values
  | compactErased e j n busy kind journal =>
    exact law.ofServing busy (by simp [kind]) id (.inl rfl)
  | compactEraseFails e n st body busy kind =>
    have failed := law.ofServing (t := { s with store := s.store.spoilSector n, mode := .degraded }) busy
      (by simp [kind]) (by unfold State.down; exact id) (.inr (by dsimp only))
    exact failed.finish st body
  | ownAdvances e js en o item rest =>
    exact State.modeLaw.onFlight (law.setStore _ s.skipped s.row s.prov s.values) fun _ => rfl
  | switched e js en o m st body busy kind =>
    refine State.modeLaw.finish ?_ st body
    rcases kind with ⟨kind, rfl⟩ | ⟨-, rfl⟩
    · exact law.ofServing busy (by simp [kind]) id (.inl rfl)
    · exact State.modeLaw_of_serving (law.busy busy).1 (.inl rfl)
  | formatErased e n =>
    unfold Machine.formatErased
    dsimp only
    split
    · exact State.modeLaw.onFlight (law.setStore _ s.skipped s.row s.prov s.values) fun _ => rfl
    · exact State.modeLaw.onFlight (law.setStore _ 0 s.row s.prov s.values) fun _ => rfl
  | formatEraseFails e n st body =>
    exact (law.setStore (s.store.spoilSector n) s.skipped s.row s.prov s.values).finish st body
  | rowWritten e r pv st body => exact (law.setStore s.store s.skipped r pv (valuesOf pv r)).finish st body
  | pinenRises =>
    refine (Moves.pinenRises _).modeLaw ?_
    simp only [State.pinenUp, State.removeWaiters_told]
    exact law.change id rfl
      (fun _ bare rest => ⟨⟨bare.vols, bare.views, bare.claims, by simp [bare.waits], bare.journal⟩, rest.fifos, rest.slot,
        rest.engine⟩)
      (fun _ bare only => ⟨⟨bare.vols, bare.views, bare.claims, by simp [bare.waits], bare.journal⟩, only.queued, only.inFlight⟩)
  | pinenFalls =>
    exact law.change id rfl
      (fun _ bare rest => ⟨⟨bare.vols, bare.views, bare.claims, bare.waits, bare.journal⟩, rest.fifos, rest.slot, rest.engine⟩)
      (fun _ bare only => ⟨⟨bare.vols, bare.views, bare.claims, bare.waits, bare.journal⟩, only.queued, only.inFlight⟩)
  | portCleared p =>
    have frame := s.portCleared_frame p
    refine law.change (fun d => ?_) ?_ (fun _ bare rest => ⟨bare.portCleared p, ?_⟩) (fun _ bare only => ⟨bare.portCleared p, ?_⟩)
    · obtain ⟨cs, e⟩ := frame
      rw [e] at d
      exact d
    · obtain ⟨cs, e⟩ := frame
      rw [e]
    · obtain ⟨cs, e⟩ := frame
      rw [e]
      refine ⟨?_, rest.slot, by simp [rest.engine]⟩
      dsimp only
      rw [rest.fifos]
      refine Vector.ext fun i lt => ?_
      simp
    · obtain ⟨cs, e⟩ := frame
      rw [e]
      refine ⟨fun q o mem => ?_, fun x busy => ?_⟩
      · by_cases same : p = q
        · subst same
          simp at mem
        · have : p.val ≠ q.val := fun h => same (Fin.ext h)
          simp only [Fin.getElem_fin, Vector.getElem_set_ne _ _ this] at mem
          exact only.queued q o mem
      · obtain ⟨y, flight, rfl⟩ := Option.map_eq_some_iff.mp busy
        have kind := only.inFlight y flight
        split <;> exact kind
  | portServes p =>
    exact law.change id rfl
      (fun _ bare rest => ⟨⟨bare.vols, bare.views, bare.claims, bare.waits, bare.journal⟩, rest.fifos, rest.slot, rest.engine⟩)
      (fun _ bare only => ⟨⟨bare.vols, bare.views, bare.claims, bare.waits, bare.journal⟩, only.queued, only.inFlight⟩)
  | resetRises cut => exact State.modeLaw_of_cleared (s := s.abort cut)
  | powerFalls cut => exact State.modeLaw_of_cleared (s := s.abort cut)
  | resetFalls asserted =>
    exact law.change (fun d => .inr asserted) rfl
      (fun _ bare rest => ⟨⟨bare.vols, bare.views, bare.claims, bare.waits, bare.journal⟩, rest.fifos, rest.slot, rest.engine⟩)
      (fun _ bare only => ⟨⟨bare.vols, bare.views, bare.claims, bare.waits, bare.journal⟩, only.queued, only.inFlight⟩)
  | unformatted powered line starting =>
    obtain ⟨-, rest⟩ := (State.modeLaw_iff.mp law).2.1 starting
    rw [State.modeLaw_iff]
    refine ⟨fun d => ?_, fun mode => (nomatch mode), fun _ => ⟨⟨rfl, rfl, rfl, rfl, rfl⟩, fun p o mem => ?_, fun e busy => ?_⟩⟩
    · exact absurd (show s.down from d) (by simp [State.down, powered, line])
    · have : s.fifos[p] = [] := by simp [rest.fifos]
      exact absurd (show o ∈ s.fifos[p] from mem) (by simp [this])
    · exact absurd (show s.engine = some e from busy) (by simp [rest.engine])
  | replayed r powered line =>
    refine State.modeLaw_of_serving ?_ (.inl ?_)
    · obtain ⟨slot, checked⟩ := State.compactionCheck_frame { s.deriveRow.emptyClaims with
        vols := r.dir, journal := some r.journal, skipped := r.skipped, mode := .normal }
      rw [checked]
      exact fun d => absurd (show s.down from d) (by simp [State.down, powered, line])
    · obtain ⟨slot, checked⟩ := State.compactionCheck_frame { s.deriveRow.emptyClaims with
        vols := r.dir, journal := some r.journal, skipped := r.skipped, mode := .normal }
      rw [checked]

end

end Sys2Proof.Machine
end

section
/-! The picks of the arbiter in each mode (R90, R130), the idle engine, and the ranges of R85, R102 and R112. -/

namespace Sys2Proof.Machine

section
variable {s t : State} {b : Bool}

/-- A pick takes from the FIFOs and leaves the rest of them (R91). -/
theorem State.takePick_queued {o : Op} (picked : s.takePick = some (o, t)) (p : Port) : ∀ x ∈ t.fifos[p], x ∈ s.fifos[p] := by
  rcases State.takePick_cases picked with ⟨-, rfl, rfl⟩ | ⟨-, q, rest, fifo, rfl⟩
  · exact fun _ mem => mem
  · intro x mem
    by_cases same : q = p
    · subst same
      rw [fifo]
      simp only [Fin.getElem_fin, Vector.getElem_set_self] at mem
      exact List.mem_cons_of_mem o mem
    · have : q.val ≠ p.val := fun h => same (Fin.ext h)
      simpa only [Fin.getElem_fin, Vector.getElem_set_ne _ _ this] using mem

/-- What a pick leaves of a part without volumes. -/
theorem State.Bare.takePick (bare : s.Bare) {o : Op} (picked : s.takePick = some (o, t)) : t.Bare := by
  obtain ⟨fs, c, r, e, rfl⟩ := s.takePick_frame o t picked
  exact ⟨bare.vols, bare.views, bare.claims, bare.waits, bare.journal⟩

/-- Without volumes only FORMAT and PROVISION find what their start checks ask for in UNFORMATTED. -/
theorem Begun.of_bare {o : Op} (begun : Begun o s t) (bare : s.Bare) (mode : s.mode = .unformatted) :
    (o.kind = .format ∨ o.kind = .provision) ∧ ∃ ph, t = s.enter ph := by
  cases begun with
  | format kind => exact ⟨.inl kind, _, rfl⟩
  | provision kind => exact ⟨.inr kind, _, rfl⟩
  | compact j kind normal => rw [mode] at normal; cases normal
  | create v a b j kind vol unused place journal => rw [bare.journal] at journal; cases journal
  | delete v x j kind vol used | access v x j rd wr kind vol used | pin v x j kind vol used | unpin v x j kind vol used
  | stage v x j kind vol used | rollback v x j kind vol used | erase v x sl kind vol used | program v x sl kind vol used
  | commit v x kind vol used => rw [bare.vol v] at used; cases used

theorem Work.modeLaw (w : Work s t) (law : s.modeLaw) : t.modeLaw := by
  have frame := w.frame
  have law' := State.modeLaw_iff.mp law
  obtain ⟨down, -, unformatted⟩ := law'
  have begun : s.mode ≠ .starting := by cases w <;> assumption
  have up : ¬s.down := fun d => begun (down d)
  have lines : ¬t.down := by obtain ⟨_, _, _, _, _, _, _, _, _, rfl, -⟩ := frame; exact up
  have mode : t.mode = s.mode ∨ t.mode = .degraded := by obtain ⟨_, _, _, _, _, _, _, _, _, rfl, m⟩ := frame; exact m
  by_cases unf : t.mode = .unformatted
  · have before : s.mode = .unformatted := mode.elim (fun m => m ▸ unf) (fun m => by rw [m] at unf; cases unf)
    obtain ⟨bare, only⟩ := unformatted before
    rw [State.modeLaw_iff]
    refine ⟨fun d => absurd d lines, fun m => (by rw [unf] at m; cases m), fun _ => ?_⟩
    cases w with
    | runs u t o idle begun picked starts =>
      have picks := bare.takePick picked
      have mode' : u.mode = .unformatted := by obtain ⟨_, _, _, _, rfl⟩ := s.takePick_frame o u picked; exact before
      obtain ⟨kind, ph, rfl⟩ := (startOp_runs starts).of_bare picks mode'
      refine ⟨⟨picks.vols, picks.views, picks.claims, picks.waits, picks.journal⟩, fun p x mem =>
        only.queued p x (State.takePick_queued picked p x mem), fun x busy => ?_⟩
      obtain ⟨p, flight⟩ := State.takePick_engine picked
      rw [State.enter_engine, flight] at busy
      cases busy
      exact kind
    | ends u v o st body idle begun picked starts =>
      have picks := bare.takePick picked
      have ended : v.Bare := by
        rcases startOp_ends starts with rfl | rfl
        · exact picks
        · exact ⟨picks.vols, picks.views, picks.claims, picks.waits, picks.journal⟩
      have queued : v.fifos = u.fifos := by rcases startOp_ends starts with rfl | rfl <;> rfl
      obtain ⟨q, e⟩ := ended.finish st body
      rw [e]
      refine ⟨⟨ended.vols, ended.views, ended.claims, ended.waits, ended.journal⟩, fun p x mem => ?_, fun _ busy => nomatch busy⟩
      refine only.queued p x (State.takePick_queued picked p x ?_)
      rw [← queued]
      exact mem
  · refine State.modeLaw_of_serving lines ?_
    rcases mode with m | m
    · cases mode' : t.mode with
      | starting => exact absurd (m.symm.trans mode') begun
      | unformatted => exact absurd mode' unf
      | normal => exact .inl rfl
      | degraded => exact .inr rfl
    · exact .inr m

theorem Reaches.modeLaw (h : Reaches s b t) (law : s.modeLaw) : t.modeLaw :=
  h.keeps law (fun _ _ e => e.modeLaw law) (fun _ _ law m => m.modeLaw law) (fun _ _ law a => a.modeLaw law)
    (fun _ _ law q => q.modeLaw law) (fun _ _ law w => w.modeLaw law)

/-! ### The idle engine (R90) -/

theorem State.idleLaw_iff : s.idleLaw ↔ s.settled := by
  unfold State.idleLaw State.settled
  cases s.engine with
  | none => simp only [Option.isSome_none, Bool.false_eq_true, false_or, true_implies]; exact Decidable.imp_iff_not_or.trans (by simp)
  | some e => simp

/-- Taking operations out of one FIFO takes work away. -/
theorem State.work_shrinks (p : Port) (ops : List Op) (fewer : ops.length ≤ s.fifos[p].length) : (s.setFifo p ops).work ≤ s.work := by
  have := s.work_setFifo p ops
  omega

theorem State.settled.of_le (h : s.settled) (busy : t.engine.isSome = s.engine.isSome) (mode : t.mode = s.mode)
    (work : t.work ≤ s.work) : t.settled := by
  rcases h with h | h | h
  · exact .inl (busy.trans h)
  · exact .inr (.inl (mode.trans h))
  · exact .inr (.inr (by omega))

/-- What a revocation leaves of a FIFO (R55). -/
theorem State.revoke_fifos (c : ClaimIx) (n : Notice) : ∃ (p : Port) (f : Op → Bool),
    (s.revoke c n).fifos = s.fifos.set p (s.fifos[p].filter f) := by
  cases entry : s.claims[c] with
  | none =>
    refine ⟨0, fun _ => true, ?_⟩
    rw [State.revoke, entry, List.filter_true]
    exact (Vector.set_self s.fifos 0).symm
  | some cl =>
    rw [s.revoke_some c n entry]
    split
    · exact ⟨_, _, rfl⟩
    · obtain ⟨ws, cs, h, e, -⟩ := State.grantAll_frame ((s.called c cl n).freed c cl)
      rw [e]
      exact ⟨_, _, rfl⟩

/-- A move takes operations out of FIFOs at most, and keeps the engine busy or idle. -/
theorem Move.fifos (m : Move s t) :
    (t.fifos = s.fifos ∨ ∃ (p : Port) (f : Op → Bool), t.fifos = s.fifos.set p (s.fifos[p].filter f))
      ∧ t.engine.isSome = s.engine.isSome := by
  cases m with
  | suspend => exact ⟨.inl rfl, by simp⟩
  | revoke c n =>
    refine ⟨.inr (s.revoke_fifos c n), ?_⟩
    obtain ⟨_, _, _, _, _, e, -⟩ := s.revoke_frame c n
    rw [e]
  | grants =>
    obtain ⟨_, _, _, e, -⟩ := s.grantAll_frame
    rw [e]
    exact ⟨.inl rfl, rfl⟩
  | receive p wire n =>
    unfold State.receive
    split
    · exact ⟨.inl rfl, rfl⟩
    · split <;> exact ⟨.inl rfl, rfl⟩
  | _ => exact ⟨.inl rfl, rfl⟩

theorem Move.settled (m : Move s t) (h : s.settled) : t.settled := by
  obtain ⟨fifos, busy⟩ := m.fifos
  obtain ⟨_, _, _, _, _, fs, _, rfl⟩ := m.frame
  refine h.of_le busy rfl ?_
  rcases fifos with rfl | ⟨p, f, rfl⟩
  · exact le_rfl
  · exact State.work_shrinks p _ (List.length_filter_le _ _)

theorem Ask.settled (a : Ask s t) (h : s.settled) : t.settled := by
  obtain ⟨_, _, _, rfl⟩ := a.frame
  exact h

theorem State.portCleared_work (p : Port) : (s.portCleared p).work ≤ s.work := by
  obtain ⟨cs, e⟩ := s.portCleared_frame p
  rw [e]
  exact State.work_shrinks p [] (Nat.zero_le _)

/-- After an event that leaves a busy engine busy and an idle one without work, the arbiter has nothing to pick. -/
theorem Event.settled (h : Event s true t) (law : s.modeLaw) (idle : s.settled) : t.settled := by
  cases h with
  | verified e v x sl len crc u busy kind phase staged length begins =>
    obtain ⟨j, -, -, rfl⟩ := beginRecord_runs begins
    exact .inl (by simp [State.begun, busy])
  | retried e js j busy => exact .inl (by simp [State.countTry, State.passedOver, busy])
  | ownRetried e js o busy => exact .inl (by simp [State.ownPassedOver, busy])
  | compactErased e j n busy => exact .inl (by simp [State.beginOwn, busy])
  | ownAdvances e js en o item rest busy => exact .inl (by simp [Machine.ownAdvances, busy])
  | formatErased e n busy =>
    unfold Machine.formatErased
    dsimp only
    split <;> exact .inl (by simp [State.beginOwn, busy])
  | pinenRises =>
    refine (Moves.pinenRises _).keeps ?_ fun _ _ h m => m.settled h
    simp only [State.pinenUp, State.removeWaiters_told]
    exact idle
  | pinenFalls | portServes p | resetFalls => exact idle
  | portCleared p =>
    refine idle.of_le ?_ ?_ (State.portCleared_work p)
    · obtain ⟨cs, e⟩ := s.portCleared_frame p
      rw [e]
      exact Option.isSome_map
    · obtain ⟨cs, e⟩ := s.portCleared_frame p
      rw [e]
  | resetRises | powerFalls => exact .inr (.inl rfl)
  | unformatted powered line starting =>
    obtain ⟨-, rest⟩ := (State.modeLaw_iff.mp law).2.1 starting
    refine .inr (.inr ?_)
    change s.work = 0
    simp [State.work, rest.fifos, rest.slot]

theorem Reaches.settled (h : Reaches s b t) (law : s.modeLaw) (idle : s.settled) : b = true → t.settled := by
  induction h with
  | framed h => exact fun _ => h.keeps idle (fun _ _ h m => m.settled h) (fun _ _ h a => a.settled h)
  | queue => exact fun flag => nomatch flag
  | event h =>
    intro flag
    subst flag
    exact h.settled law idle
  | move _ m ih => exact fun flag => m.settled (ih flag)
  | work => exact fun flag => nomatch flag
  | settle _ picked => exact fun _ => picked

end

end Sys2Proof.Machine
end

section
/-! Replay (R122 to R125): the sector it chooses, the place it leaves, and the counts it keeps. -/

namespace Sys2Proof.Machine

/-! ### Judged positions -/

theorem classify_length (last : Option Word) (ps : List (Option (Option JEntry))) : (classify last ps).length = ps.length := by
  induction ps generalizing last with
  | nil => rfl
  | cons p rest ih =>
    match p, last with
    | none, _ => simp [classify, ih]
    | some none, _ => simp [classify, ih]
    | some (some e), none => simp [classify, ih]
    | some (some e), some q => simp only [classify]; split <;> simp [ih]

theorem judged_length (st : Store) (j : JSector) : (judged st j).length = 2048 := by
  simp [judged, classify_length, Config.positions]

/-- Replay as it reads one sector under an epoch. -/
def replayOf (st : Store) (j : JSector) (epoch : Nat) : Replayed where
  journal := { sector := j, epoch := epoch, append := appendAfter 0 (judged st j), seq := nextSeq (judged st j) }
  skipped := (rebuild (judged st j)).skipped
  dir := endReplay (rebuild (judged st j)).dir

section
variable (st : Store) (j : JSector) (epoch : Nat)

@[simp] theorem replayOf_sector : (replayOf st j epoch).journal.sector = j := rfl
@[simp] theorem replayOf_epoch : (replayOf st j epoch).journal.epoch = epoch := rfl
@[simp] theorem replayOf_append : (replayOf st j epoch).journal.append = appendAfter 0 (judged st j) := by simp only [replayOf]
@[simp] theorem replayOf_seq : (replayOf st j epoch).journal.seq = nextSeq (judged st j) := by simp only [replayOf]
@[simp] theorem replayOf_skipped : (replayOf st j epoch).skipped = (rebuild (judged st j)).skipped := by simp only [replayOf]
@[simp] theorem replayOf_dir : (replayOf st j epoch).dir = endReplay (rebuild (judged st j)).dir := by simp only [replayOf]

end

theorem replay_eq (st : Store) : replay st =
    (chooseSector (usableEpoch (judged st .j0)) (usableEpoch (judged st .j1))).map (fun x => replayOf st x.1 x.2) := by
  unfold replay
  dsimp only
  split
  · rename_i none
    rw [none]
    rfl
  · rename_i j epoch found
    rw [found]
    cases j <;> rfl

/-- The sector and the epoch of a replay are those it has chosen. -/
theorem replay_some {st : Store} {r : Replayed} (h : replay st = some r) :
    ∃ j epoch, chooseSector (usableEpoch (judged st .j0)) (usableEpoch (judged st .j1)) = some (j, epoch)
      ∧ r = replayOf st j epoch := by
  rw [replay_eq, Option.map_eq_some_iff] at h
  obtain ⟨⟨j, epoch⟩, chosen, rfl⟩ := h
  exact ⟨j, epoch, chosen, rfl⟩

/-! ### The append point (R125) -/

theorem appendAfter_le (k : Nat) (ps : List (Option (Option JEntry))) : appendAfter k ps ≤ k + ps.length := by
  induction ps generalizing k with
  | nil => exact Nat.zero_le _
  | cons p rest ih =>
    have := ih (k + 1)
    simp only [appendAfter, List.length_cons]
    split
    · split <;> omega
    · omega

theorem appendAfter_above (k : Nat) (ps : List (Option (Option JEntry))) : appendAfter k ps = 0 ∨ k < appendAfter k ps := by
  induction ps generalizing k with
  | nil => exact .inl rfl
  | cons p rest ih =>
    have := ih (k + 1)
    simp only [appendAfter]
    split
    · split <;> simp
    · omega

/-- From the append point on every position is blank. -/
theorem appendAfter_blank (k : Nat) (ps : List (Option (Option JEntry))) (i : Nat) (lt : i < ps.length)
    (after : appendAfter k ps ≤ k + i) : ps[i] = none := by
  induction ps generalizing k i with
  | nil => exact absurd lt (Nat.not_lt_zero i)
  | cons p rest ih =>
    have above := appendAfter_above (k + 1) rest
    simp only [appendAfter] at after
    cases i with
    | zero =>
      split at after
      · split at after
        · omega
        · rename_i blank
          simpa using blank
      · omega
    | succ i =>
      simp only [List.getElem_cons_succ]
      refine ih (k + 1) i (by simpa using lt) ?_
      split at after <;> omega

/-- The position before the append point is not blank. -/
theorem appendAfter_last (k : Nat) (ps : List (Option (Option JEntry))) (some : appendAfter k ps ≠ 0) :
    ∃ i, ∃ lt : i < ps.length, appendAfter k ps = k + i + 1 ∧ ps[i].isSome = true := by
  induction ps generalizing k with
  | nil => exact absurd rfl some
  | cons p rest ih =>
    simp only [appendAfter] at some ⊢
    by_cases later : appendAfter (k + 1) rest = 0
    · simp only [later, if_true] at some ⊢
      split at some
      · rename_i full
        exact ⟨0, by simp, by simp [full], full⟩
      · exact absurd rfl some
    · simp only [later, if_false] at some ⊢
      obtain ⟨i, lt, eq, full⟩ := ih (k + 1) later
      exact ⟨i + 1, by simpa using lt, by omega, full⟩

/-! ### The counter of skipped positions (R112) -/

theorem countSkip_le {n : Nat} (h : n ≤ Config.skippedMax) : countSkip n ≤ Config.skippedMax := by
  unfold countSkip
  split <;> omega

theorem rebuildVol_skipped (r : Rebuild) (b : Byte) (label : Half) (size : Byte) (baseA baseB : Half)
    (readers writers pinned : Byte) (gen : Word) :
    (rebuildVol r b label size baseA baseB readers writers pinned gen).skipped = r.skipped
      ∨ (rebuildVol r b label size baseA baseB readers writers pinned gen).skipped = countSkip r.skipped := by
  unfold rebuildVol
  dsimp only
  split
  · exact .inr rfl
  · split
    · exact .inl rfl
    · exact .inr rfl

theorem rebuildSlot_skipped (r : Rebuild) (b slot state : Byte) (gen len crc : Word) :
    (rebuildSlot r b slot state gen len crc).skipped = r.skipped
      ∨ (rebuildSlot r b slot state gen len crc).skipped = countSkip r.skipped := by
  unfold rebuildSlot
  split
  · split
    · split
      · exact .inl rfl
      · exact .inr rfl
    · exact .inr rfl
  · exact .inr rfl

/-- A position is counted or not. -/
theorem rebuildStep_skipped (r : Rebuild) (p : Option (Option JEntry)) :
    (rebuildStep r p).skipped = r.skipped ∨ (rebuildStep r p).skipped = countSkip r.skipped := by
  unfold rebuildStep
  split
  · exact .inl rfl
  · exact .inr rfl
  · unfold rebuildEntry
    split
    · split
      · exact .inl rfl
      · exact .inr rfl
    · split
      · exact .inl rfl
      · exact rebuildVol_skipped ..
      · exact rebuildSlot_skipped ..
      · exact .inl rfl
      all_goals exact .inr rfl

theorem rebuild_skipped_le (ps : List (Option (Option JEntry))) : (rebuild ps).skipped ≤ Config.skippedMax := by
  have all : ∀ r : Rebuild, r.skipped ≤ Config.skippedMax → (ps.foldl rebuildStep r).skipped ≤ Config.skippedMax := by
    induction ps with
    | nil => exact fun _ h => h
    | cons p rest ih =>
      intro r le
      refine ih _ ?_
      rcases rebuildStep_skipped r p with h | h <;> rw [h]
      · exact le
      · exact countSkip_le le
  exact all .start (Nat.zero_le _)

theorem replay_bounds {st : Store} {r : Replayed} (h : replay st = some r) :
    r.journal.append ≤ Config.positions ∧ r.skipped ≤ Config.skippedMax := by
  obtain ⟨j, epoch, -, rfl⟩ := replay_some h
  rw [replayOf_append, replayOf_skipped]
  have le := appendAfter_le 0 (judged st j)
  rw [judged_length, Nat.zero_add] at le
  exact ⟨le, rebuild_skipped_le _⟩

end Sys2Proof.Machine
end

section
/-! The ranges of R85, R102 and R112 (the FIFOs, the append point, the counter of skipped positions, the suspend count). -/

namespace Sys2Proof.Machine

/-- The append point lies within its sector and the counter of skipped positions saturates (R112). -/
def State.placeInRange (s : State) : Prop := (∀ j ∈ s.journal, j.append ≤ Config.positions) ∧ s.skipped ≤ Config.skippedMax

/-- The suspend count stays within the budget of its phase (R102). -/
def State.suspendsInRange (s : State) : Prop := ∀ e ∈ s.engine, e.suspends ≤ e.suspendBound

/-- No FIFO holds more than its 4 records (R85). -/
def State.fifosInRange (s : State) : Prop := ∀ p : Port, s.fifos[p].length ≤ Config.fifoEntries

section
variable {s t : State} {b : Bool}

theorem State.rangeLaw_iff : s.rangeLaw ↔ s.fifosInRange ∧ s.placeInRange ∧ s.suspendsInRange :=
  ⟨fun ⟨f, j, n, e⟩ => ⟨f, ⟨j, n⟩, e⟩, fun ⟨f, ⟨j, n⟩, e⟩ => ⟨f, j, n, e⟩⟩

/-- What an abort leaves changed: the array or the row (R106). -/
theorem State.abort_changes (cut : Cut) : ∃ st r, s.abort cut = { s with store := st, row := r } := by
  unfold State.abort
  split
  · exact ⟨_, _, rfl⟩
  · split
    · exact ⟨_, _, rfl⟩
    · exact ⟨_, _, rfl⟩
    · exact ⟨_, _, rfl⟩
    · exact ⟨_, _, rfl⟩
    · split
      · exact ⟨_, _, rfl⟩
      · split <;> exact ⟨_, _, rfl⟩
    · exact ⟨_, _, rfl⟩

theorem State.abort_hpi (cut : Cut) : (s.abort cut).hpi = s.hpi := by
  obtain ⟨_, _, e⟩ := s.abort_changes cut
  rw [e]

theorem State.abort_skipped (cut : Cut) : (s.abort cut).skipped = s.skipped := by
  obtain ⟨_, _, e⟩ := s.abort_changes cut
  rw [e]

/-! ### FIFOs -/

theorem fifos_set_range {fs : Vector (List Op) 4} (h : ∀ p : Port, fs[p].length ≤ Config.fifoEntries) (p : Port) (ops : List Op)
    (short : ops.length ≤ Config.fifoEntries) (q : Port) : ((fs.set p ops)[q]).length ≤ Config.fifoEntries := by
  rw [fifo_set_length]
  split
  · exact short
  · exact h q

theorem Move.fifosInRange (m : Move s t) (h : s.fifosInRange) : t.fifosInRange := by
  unfold State.fifosInRange
  rcases m.fifos.1 with fifos | ⟨p, f, fifos⟩
  · rw [fifos]; exact h
  · rw [fifos]
    exact fifos_set_range h p _ ((List.length_filter_le _ _).trans (h p))

theorem Moves.fifosInRange (ms : Moves s t) (h : s.fifosInRange) : t.fifosInRange := ms.keeps h fun _ _ h m => m.fifosInRange h

theorem State.finish_fifos (st : Status) (body : List Byte) : (s.finish st body).fifos = s.fifos := by
  obtain ⟨_, _, _, _, e, -⟩ := s.finish_frame st body
  rw [e]

theorem Work.fifosInRange (w : Work s t) (h : s.fifosInRange) : t.fifosInRange := by
  have picks : ∀ {o u}, s.takePick = some (o, u) → u.fifosInRange := fun {o u} picked => by
    rcases State.takePick_cases picked with ⟨-, -, rfl⟩ | ⟨-, p, rest, fifo, rfl⟩
    · exact h
    · have le := h p
      rw [fifo, List.length_cons] at le
      exact fifos_set_range h p rest (by omega)
  cases w with
  | runs u t o idle begun picked starts =>
    have left := picks picked
    obtain ⟨d, e, rfl⟩ := (startOp_runs starts).frame
    exact left
  | ends u v o st body idle begun picked starts =>
    unfold State.fifosInRange
    rw [State.finish_fifos]
    have left := picks picked
    rcases startOp_ends starts with rfl | rfl <;> exact left

/-- An entry that completes takes operations out of a FIFO at most (R20, R139). -/
theorem entryEffect_fifos (k : Kind) (e : InFlight) : (entryEffect k e s).fifos = s.fifos
    ∨ ∃ (p : Port) (f : Op → Bool), (entryEffect k e s).fifos = s.fifos.set p (s.fifos[p].filter f) := by
  have told : ∀ (u : State) f st, (u.removeWaiters f st).fifos = u.fifos := fun u f st => by rw [u.removeWaiters_told]
  cases k with
  | deleteVolume =>
    refine .inl ?_
    change (forVolume afterDelete e s).fifos = _
    unfold forVolume
    split
    · rfl
    · exact told ..
  | setAccess =>
    change (forVolume afterAccess e s).fifos = _ ∨ ∃ (p : Port) (f : Op → Bool), (forVolume afterAccess e s).fifos = _
    unfold forVolume
    split
    · exact .inl rfl
    · unfold afterAccess
      split
      · exact .inl rfl
      · dsimp only
        split
        · exact .inl (told ..)
        · split
          · exact .inl (told ..)
          · split
            · obtain ⟨p, f, fifos⟩ := State.revoke_fifos (s := s.removeWaiters _ _) _ .revoked
              rw [told] at fifos
              exact .inr ⟨p, f, fifos⟩
            · exact .inl (told ..)
  | pin =>
    change (forVolume afterPin e s).fifos = _ ∨ ∃ (p : Port) (f : Op → Bool), (forVolume afterPin e s).fifos = _
    unfold forVolume
    split
    · exact .inl rfl
    · unfold afterPin
      split
      · unfold State.revokeVolume
        split
        · exact .inl (told ..)
        · split
          · exact .inl (told ..)
          · split
            · obtain ⟨p, f, fifos⟩ := State.revoke_fifos (s := s.removeWaiters _ _) _ .revoked
              rw [told] at fifos
              exact .inr ⟨p, f, fifos⟩
            · exact .inl (told ..)
      · exact .inl rfl
  | beginStage =>
    change (afterStage e s).fifos = _ ∨ _
    unfold afterStage
    split
    · split <;> exact .inl rfl
    · exact .inl rfl
  | commit =>
    change (afterCommit e s).fifos = _ ∨ _
    unfold afterCommit
    split <;> exact .inl rfl
  | _ => exact .inl rfl

/-- The FIFOs after an event: as before, shortened, or all empty (R55, R87, R88). -/
theorem Event.fifos (h : Event s b t) : t.fifos = s.fifos ∨ t.fifos = Vector.replicate 4 []
    ∨ (∃ (p : Port) (f : Op → Bool), t.fifos = s.fifos.set p (s.fifos[p].filter f)) ∨ ∃ u, u.fifos = s.fifos ∧ Moves u t := by
  have fin : ∀ (u : State) st body, u.fifos = s.fifos → (u.finish st body).fifos = s.fifos := fun u st body same => by
    rw [State.finish_fifos, same]
  cases h with
  | finished | beginLost | ownLost | compactEraseFails | formatEraseFails | switched | rowWritten => exact .inl (fin _ _ _ rfl)
  | eraseEnds e n i m store | programEnds e n pg i m store =>
    refine .inl (fin _ _ _ ?_)
    obtain ⟨cs, eq⟩ := State.setMapEntry_frame { s with store := store } e.op.claim i m
    rw [eq]
  | verified e v x sl len crc u busy kind phase staged length begins =>
    obtain ⟨j, -, -, rfl⟩ := beginRecord_runs begins
    exact .inl rfl
  | entry k e en j st body =>
    rw [State.finish_fifos]
    have same : (s.journalled en j).fifos = s.fifos := by
      obtain ⟨slot, checked⟩ := State.compactionCheck_frame { s with
        store := s.store.program (positionBase j.sector j.append) (entryBytes en)
        journal := some { j with append := j.append + 1, seq := j.seq + 1 }
        vols := applied en.content s.vols }
      rw [State.journalled, checked]
    rcases entryEffect_fifos (s := s.journalled en j) k e with fifos | ⟨p, f, fifos⟩
    · exact .inl (fifos.trans same)
    · rw [same] at fifos
      exact .inr (.inr (.inl ⟨p, f, fifos⟩))
  | lost e js j =>
    obtain ⟨d, cleared⟩ := clearDeleting_frame e { s.passedOver j with mode := .degraded }
    refine .inl (fin _ _ _ ?_)
    rw [cleared]
    rfl
  | formatErased e n =>
    unfold Machine.formatErased
    dsimp only
    split <;> exact .inl rfl
  | pinenRises =>
    refine .inr (.inr (.inr ⟨_, ?_, Moves.pinenRises _⟩))
    simp only [State.pinenUp, State.removeWaiters_told]
  | portCleared p =>
    obtain ⟨cs, e⟩ := s.portCleared_frame p
    rw [e]
    exact .inr (.inr (.inl ⟨p, fun _ => false, by simp⟩))
  | resetRises | powerFalls => exact .inr (.inl rfl)
  | replayed r =>
    obtain ⟨slot, checked⟩ := State.compactionCheck_frame { s.deriveRow.emptyClaims with
      vols := r.dir, journal := some r.journal, skipped := r.skipped, mode := .normal }
    rw [checked]
    exact .inl rfl
  | _ => exact .inl rfl

theorem Event.fifosInRange (h : Event s b t) (range : s.fifosInRange) : t.fifosInRange := by
  unfold State.fifosInRange
  rcases h.fifos with fifos | fifos | ⟨p, f, fifos⟩ | ⟨u, fifos, moves⟩
  · rw [fifos]; exact range
  · rw [fifos]; simp
  · rw [fifos]
    exact fifos_set_range range p _ ((List.length_filter_le _ _).trans (range p))
  · exact moves.fifosInRange (by unfold State.fifosInRange; rw [fifos]; exact range)

theorem Reaches.fifosInRange (h : Reaches s b t) (range : s.fifosInRange) : t.fifosInRange :=
  h.keeps range (fun _ _ e => e.fifosInRange range) (fun _ _ r m => m.fifosInRange r)
    (fun _ _ r a => by obtain ⟨_, _, _, rfl⟩ := a.frame; exact r)
    (fun u w r q => by
      obtain ⟨p, o, room, short, begun, fits⟩ := q
      exact fifos_set_range r p _ (by rw [List.length_append, List.length_singleton]; omega))
    (fun _ _ r w => w.fifosInRange r)

/-! ### The place in the journal (R112) -/

theorem State.placeInRange.congr (h : s.placeInRange) (journal : t.journal = s.journal) (skipped : t.skipped = s.skipped) :
    t.placeInRange := by
  unfold State.placeInRange
  rw [journal, skipped]
  exact h

theorem State.placeInRange.finish (h : s.placeInRange) (st : Status) (body : List Byte) : (s.finish st body).placeInRange := by
  obtain ⟨_, _, _, _, e, -⟩ := s.finish_frame st body
  rw [e]
  exact h

theorem State.placeInRange.passedOver (h : s.placeInRange) {j : Journal} (inside : j.append < Config.positions) :
    (s.passedOver j).placeInRange :=
  ⟨fun _ e => by cases e; exact inside, countSkip_le h.2⟩

theorem State.placeInRange.ownPassedOver (h : s.placeInRange) (js : JSector) (o : OwnSector) :
    (s.ownPassedOver js o).placeInRange := ⟨h.1, countSkip_le h.2⟩

theorem Event.placeInRange (h : Event s b t) (range : s.placeInRange) : t.placeInRange := by
  have none : ∀ n : Nat, n ≤ Config.skippedMax → ∀ u : State, u.journal = none → u.skipped = n → u.placeInRange :=
    fun n le u e e' => ⟨by simp [e], by rw [e']; exact le⟩
  cases h with
  | finished st body => exact range.finish st body
  | beginLost | compactEraseFails | formatEraseFails | rowWritten =>
    refine State.placeInRange.finish ?_ _ _
    exact ⟨range.1, range.2⟩
  | eraseEnds e n i m store | programEnds e n pg i m store =>
    obtain ⟨cs, eq⟩ := State.setMapEntry_frame { s with store := store } e.op.claim i m
    rw [eq]
    refine State.placeInRange.finish ?_ _ _
    exact ⟨range.1, range.2⟩
  | verified e v x sl len crc u busy kind phase staged length begins =>
    obtain ⟨j, -, -, rfl⟩ := beginRecord_runs begins
    exact range.congr rfl rfl
  | entry k e en j st body under inside =>
    refine State.placeInRange.finish ?_ st body
    obtain ⟨d, ws, cs, fs, q, effect⟩ := entryEffect_frame k e (s.journalled en j)
    obtain ⟨slot, checked⟩ := State.compactionCheck_frame { s with
      store := s.store.program (positionBase j.sector j.append) (entryBytes en)
      journal := some { j with append := j.append + 1, seq := j.seq + 1 }
      vols := applied en.content s.vols }
    rw [effect, State.journalled, checked]
    exact ⟨fun _ e => by cases e; exact inside, range.2⟩
  | retried e js j busy phase own journal tries inside => exact (range.passedOver (Nat.lt_of_succ_lt inside)).congr rfl rfl
  | lost e js j busy phase own journal inside =>
    obtain ⟨d, cleared⟩ := clearDeleting_frame e { s.passedOver j with mode := .degraded }
    refine State.placeInRange.finish ?_ _ _
    rw [cleared]
    exact (range.passedOver inside).congr rfl rfl
  | ownRetried e js o => exact (range.ownPassedOver js o).congr rfl rfl
  | ownLost e js o m =>
    refine State.placeInRange.finish ?_ _ _
    exact ⟨range.1, countSkip_le range.2⟩
  | switched e js en o m st body busy kind phase entry own fin inside =>
    refine State.placeInRange.finish ?_ _ _
    exact ⟨fun _ e => by cases e; exact inside, range.2⟩
  | formatErased e n =>
    unfold Machine.formatErased
    dsimp only
    split
    · exact range.congr rfl rfl
    · exact ⟨range.1, Nat.zero_le _⟩
  | pinenRises =>
    obtain ⟨_, _, _, _, _, _, _, e⟩ := (Moves.pinenRises s.pinenUp).frame
    rw [e]
    simp only [State.pinenUp, State.removeWaiters_told]
    exact range
  | portCleared p =>
    obtain ⟨cs, e⟩ := s.portCleared_frame p
    rw [e]
    exact range
  | resetRises cut | powerFalls cut =>
    exact none s.skipped range.2 _ rfl (s.abort_skipped cut)
  | resetFalls => exact ⟨range.1, Nat.zero_le _⟩
  | unformatted => exact none 0 (Nat.zero_le _) _ rfl rfl
  | replayed r powered line starting usable =>
    obtain ⟨slot, checked⟩ := State.compactionCheck_frame { s.deriveRow.emptyClaims with
      vols := r.dir, journal := some r.journal, skipped := r.skipped, mode := .normal }
    rw [checked]
    obtain ⟨append, skipped⟩ := replay_bounds usable
    exact ⟨fun _ e => by cases e; exact append, skipped⟩
  | _ => exact range.congr rfl rfl

theorem Reaches.placeInRange (h : Reaches s b t) (range : s.placeInRange) : t.placeInRange :=
  h.keeps range (fun _ _ e => e.placeInRange range)
    (fun _ _ r m => by obtain ⟨_, _, _, _, _, _, _, rfl⟩ := m.frame; exact r)
    (fun _ _ r a => by obtain ⟨_, _, _, rfl⟩ := a.frame; exact r)
    (fun _ _ r q => by obtain ⟨_, rfl⟩ := q.frame; exact r)
    (fun _ _ r w => by obtain ⟨_, _, _, _, _, _, _, _, _, rfl, -⟩ := w.frame; exact r)

/-! ### The suspend count (R102) -/

theorem State.suspendsInRange_of_idle (idle : s.engine = none) : s.suspendsInRange := fun _ busy => by
  rw [idle] at busy
  cases busy

theorem State.finish_engine (st : Status) (body : List Byte) : (s.finish st body).engine = none := by
  obtain ⟨_, _, _, _, e, -⟩ := s.finish_frame st body
  rw [e]

theorem State.suspendsInRange.onFlight (h : s.suspendsInRange) {f : InFlight → InFlight}
    (within : ∀ e, s.engine = some e → e.suspends ≤ e.suspendBound → (f e).suspends ≤ (f e).suspendBound) :
    (s.onFlight f).suspendsInRange := by
  intro e busy
  obtain ⟨x, flight, rfl⟩ := Option.map_eq_some_iff.mp busy
  exact within x flight (h x flight)

theorem State.suspendsInRange.congr (h : s.suspendsInRange) (same : t.engine = s.engine) : t.suspendsInRange := by
  unfold State.suspendsInRange
  rw [same]
  exact h

theorem Move.suspendsInRange (m : Move s t) (h : s.suspendsInRange) : t.suspendsInRange := by
  cases m with
  | suspend within => exact h.onFlight fun e busy _ => within e busy
  | revoke c n =>
    obtain ⟨_, _, _, _, _, e, -⟩ := s.revoke_frame c n
    rw [e]
    exact h
  | grants =>
    obtain ⟨_, _, _, e, -⟩ := s.grantAll_frame
    rw [e]
    exact h
  | receive p wire n =>
    unfold State.receive
    split
    · exact h
    · split <;> exact h
  | _ => exact h

/-- An operation that has just begun has not been suspended (R92). -/
theorem Begun.suspends {o : Op} (h : Begun o s t) : ∀ e ∈ t.engine, ∃ x ∈ s.engine, e.suspends = x.suspends := by
  intro e busy
  cases h with
  | delete v x j =>
    rw [State.onVol_engine] at busy
    obtain ⟨y, flight, rfl⟩ := Option.map_eq_some_iff.mp busy
    exact ⟨y, flight, rfl⟩
  | _ =>
    obtain ⟨y, flight, rfl⟩ := Option.map_eq_some_iff.mp busy
    exact ⟨y, flight, rfl⟩

theorem Work.suspendsInRange (w : Work s t) : t.suspendsInRange := by
  cases w with
  | runs u t o idle begun picked starts =>
    intro e busy
    obtain ⟨x, flight, same⟩ := (startOp_runs starts).suspends e busy
    obtain ⟨p, fresh⟩ := State.takePick_engine picked
    rw [fresh] at flight
    cases flight
    rw [same]
    exact Nat.zero_le _
  | ends u v o st body => exact State.suspendsInRange_of_idle (State.finish_engine st body)

theorem Event.suspendsInRange (h : Event s b t) (range : s.suspendsInRange) : t.suspendsInRange := by
  cases h with
  | finished | eraseEnds | programEnds | entry | lost | beginLost | ownLost | compactEraseFails | switched | formatEraseFails
  | rowWritten => exact State.suspendsInRange_of_idle (State.finish_engine _ _)
  | verified e v x sl len crc u busy kind phase staged length begins =>
    obtain ⟨j, -, -, rfl⟩ := beginRecord_runs begins
    refine range.onFlight fun y flight within => ?_
    rw [busy] at flight
    cases flight
    simp only [InFlight.suspendBound, phase] at within
    exact within.trans (Nat.zero_le _)
  | retried e js j => exact (range.congr (t := s.passedOver j) rfl).onFlight fun _ _ within => within
  | ownRetried e js o => exact (range.congr (t := s.ownPassedOver js o) rfl).onFlight fun _ _ within => within
  | compactErased e j n busy kind journal phase =>
    refine State.suspendsInRange.onFlight (range.congr rfl) fun y flight within => ?_
    rw [show s.engine = some e from busy] at flight
    cases flight
    simpa only [InFlight.suspendBound, phase] using within
  | ownAdvances e js en o item rest =>
    exact State.suspendsInRange.onFlight (range.congr rfl) fun _ _ within => within
  | formatErased e n busy kind phase =>
    unfold Machine.formatErased
    dsimp only
    split
    · refine State.suspendsInRange.onFlight (range.congr rfl) fun y flight within => ?_
      rw [show s.engine = some e from busy] at flight
      cases flight
      simpa only [InFlight.suspendBound, phase] using within
    · refine State.suspendsInRange.onFlight (range.congr rfl) fun y flight within => ?_
      rw [show s.engine = some e from busy] at flight
      cases flight
      simpa only [InFlight.suspendBound, phase] using within
  | pinenRises =>
    refine (Moves.pinenRises _).keeps (range.congr ?_) fun _ _ h m => m.suspendsInRange h
    simp only [State.pinenUp, State.removeWaiters_told]
  | portCleared p =>
    obtain ⟨cs, e⟩ := s.portCleared_frame p
    rw [e]
    intro x busy
    obtain ⟨y, flight, rfl⟩ := Option.map_eq_some_iff.mp busy
    have within := range y flight
    split <;> exact within
  | resetRises | powerFalls => exact State.suspendsInRange_of_idle rfl
  | replayed r =>
    obtain ⟨slot, checked⟩ := State.compactionCheck_frame { s.deriveRow.emptyClaims with
      vols := r.dir, journal := some r.journal, skipped := r.skipped, mode := .normal }
    rw [checked]
    exact range.congr rfl
  | _ => exact range.congr rfl

theorem Reaches.suspendsInRange (h : Reaches s b t) (range : s.suspendsInRange) : t.suspendsInRange :=
  h.keeps range (fun _ _ e => e.suspendsInRange range) (fun _ _ r m => m.suspendsInRange r)
    (fun _ _ r a => by obtain ⟨_, _, _, rfl⟩ := a.frame; exact r)
    (fun _ _ r q => by obtain ⟨_, rfl⟩ := q.frame; exact r)
    (fun _ _ _ w => w.suspendsInRange)

end

/-- A part just powered on is idle, in STARTING, with nothing queued. -/
theorem State.poweredOn_idle_range (s : State) : s.poweredOn.idleLaw ∧ s.poweredOn.rangeLaw :=
  ⟨fun _ begun => absurd rfl begun, fun p => by simp [State.poweredOn, State.clearVolatile],
    fun _ e => (by cases e), Nat.zero_le _, fun _ e => (by cases e)⟩

/-- Settles O55: the laws of the modes, of the idle engine and of the ranges, each kept by every step of a command. -/
theorem modesAndRangesAreKept : Obligations.ModesAndRangesAreKept := by
  refine ⟨fun c s t law next => exec_keeps next (State.modeLaw_of_cleared (s := s.abort .during)) fun reached => reached.modeLaw law,
    fun c s t law idle range next => exec_keeps (P := fun t => t.idleLaw ∧ t.rangeLaw) next s.poweredOn_idle_range fun reached => ?_⟩
  obtain ⟨fifos, place, suspends⟩ := State.rangeLaw_iff.mp range
  exact ⟨State.idleLaw_iff.mpr (reached.settled law (State.idleLaw_iff.mp idle) rfl),
    State.rangeLaw_iff.mpr ⟨reached.fifosInRange fifos, reached.placeInRange place, reached.suspendsInRange suspends⟩⟩

end Sys2Proof.Machine
end

section
/-! Every step leaves each port room for what it holds and reserves (R156 to R158), and the frame in progress as it was (R169). -/

namespace Sys2Proof.Machine

section
variable {s t : State} {b : Bool}

theorem State.entryLaw_iff : s.entryLaw ↔ ∀ p, s.load p ≤ Config.queueEntries := Iff.rfl

/-- The same holders and states of claims give the same notices (R158). -/
theorem State.notices_congr (p : Port)
    (same : ∀ c : ClaimIx, (t.claims[c]).map Claim.identity = (s.claims[c]).map Claim.identity) : t.notices p = s.notices p := by
  have weight : ∀ x : Option Claim, noticeWeight p x
      = match x.map Claim.identity with
        | some (_, holder, state) => if holder = p ∧ state = .held then 1 else 0
        | none => 0 := fun x => by cases x <;> rfl
  have entry : ∀ c : ClaimIx, noticeWeight p t.claims[c] = noticeWeight p s.claims[c] := fun c => by
    rw [weight, weight, same]
  rw [State.notices_eq, State.notices_eq]
  exact congrArg₂ _ (congrArg₂ _ (congrArg₂ _ (entry 0) (entry 1)) (entry 2)) (entry 3)

/-- No part of what counts against the entries of a port has grown. -/
theorem State.load_le {p : Port} (queue : t.hpi[p].queue.length ≤ s.hpi[p].queue.length) (fifo : t.fifos[p].length ≤ s.fifos[p].length)
    (flight : t.flightReservation p ≤ s.flightReservation p) (notices : t.notices p ≤ s.notices p)
    (waits : t.waits.countP (fun w => w.port == p) ≤ s.waits.countP (fun w => w.port == p)) : t.load p ≤ s.load p := by
  rw [State.load_eq, State.load_eq]
  omega

/-- The load of a port is read from queues, FIFOs, engine, claims and waits alone. -/
theorem State.load_congr (p : Port) (hpi : t.hpi = s.hpi) (fifos : t.fifos = s.fifos) (engine : t.engine = s.engine)
    (claims : t.claims = s.claims) (waits : t.waits = s.waits) : t.load p = s.load p := by
  rw [State.load_eq, State.load_eq, State.notices_eq, State.notices_eq, hpi, fifos, claims, waits]
  unfold State.flightReservation
  rw [engine]

theorem queue_set_le (hs : Vector Hpi 4) (p q : Port) (h : Hpi) (queue : h.queue.length ≤ hs[p].queue.length) :
    ((hs.set p h)[q]).queue.length ≤ hs[q].queue.length := by
  by_cases e : p = q
  · subst e
    simpa using queue
  · have : p.val ≠ q.val := fun h => e (Fin.ext h)
    simp [Vector.getElem_set_ne _ _ this]

/-- What a port holds, replaced with a queue that is not longer. -/
theorem State.load_setHpi (p q : Port) (h : Hpi) (queue : h.queue.length ≤ s.hpi[p].queue.length) :
    (s.setHpi p h).load q ≤ s.load q := State.load_le (queue_set_le s.hpi p q h queue) le_rfl le_rfl le_rfl le_rfl

/-- An operation in flight reserves the same as long as its port and its discard mark stay (R158). -/
theorem State.flightReservation_map {f : InFlight → InFlight} (p : Port)
    (h : t.engine = s.engine.map f) (same : ∀ e, (f e).port = e.port ∧ (f e).discard = e.discard) :
    t.flightReservation p = s.flightReservation p := by
  unfold State.flightReservation
  rw [h]
  cases s.engine with
  | none => rfl
  | some e => simp only [Option.map_some, (same e).1, (same e).2]

theorem State.load_onFlight {f : InFlight → InFlight} (p : Port)
    (same : ∀ e, (f e).port = e.port ∧ (f e).discard = e.discard) : (s.onFlight f).load p ≤ s.load p :=
  State.load_le le_rfl le_rfl (State.flightReservation_map p rfl same).le le_rfl le_rfl

theorem Move.load (m : Move s t) (q : Port) : t.load q ≤ s.load q := by
  cases m with
  | outcome p o | select p | openFrame p | closeFrame p => exact State.load_setHpi p q _ le_rfl
  | pop p => exact State.load_setHpi p q _ (by simp)
  | receive p wire n =>
    unfold State.receive
    split
    · exact le_rfl
    · split
      · exact State.load_setHpi p q _ le_rfl
      · exact le_rfl
  | claimFields c f same => exact (s.load_onClaim q c f same).le
  | suspend => exact State.load_onFlight q fun _ => ⟨rfl, rfl⟩
  | openView | closeView => exact le_rfl
  | withdraw r p w waits own =>
    have erased : s.waits.countP (fun w => w.port == q) = (s.waits.erase w).countP (fun w => w.port == q) + if p = q then 1 else 0 := by
      rw [(List.perm_cons_erase waits).countP_eq, List.countP_cons]
      simp [own]
    unfold Machine.withdraw State.answer
    rw [State.load_push, State.load_eq, State.load_eq]
    have same : State.flightReservation { s with waits := s.waits.erase w } q = s.flightReservation q
      ∧ State.notices { s with waits := s.waits.erase w } q = s.notices q := ⟨rfl, rfl⟩
    dsimp only
    omega
  | revoke c n cl entry held => exact s.load_revoke q c cl n entry held
  | grants => exact (s.load_grantAll q).le

theorem Moves.load (ms : Moves s t) (q : Port) : t.load q ≤ s.load q :=
  ms.keeps (P := fun t => t.load q ≤ s.load q) le_rfl fun _ _ le m => (m.load q).trans le

/-- A request is answered, a claim is made or a wait begins within the room it was given (R163). -/
theorem Ask.entryLaw (a : Ask s t) (law : s.unformattedLaw) (entries : s.entryLaw) : t.entryLaw := by
  rw [State.entryLaw_iff] at entries ⊢
  intro q
  have le := entries q
  cases a with
  | answer p r room =>
    have room : s.load p + 1 ≤ Config.queueEntries := room law entries
    rw [State.load_push]
    split
    · rename_i e
      rwa [← e]
    · exact le
  | claimNow r p v c x room used stays unpinned unclaimed noWait free =>
    have room : s.load p + 2 ≤ Config.queueEntries := room law entries
    have claimed := s.notices_set q c (some (newClaim s v p r.tag)) (s.setClaim c (some (newClaim s v p r.tag))) rfl
    rw [State.freeClaim_free free] at claimed
    simp only [noticeWeight, newClaim, and_true] at claimed
    have made : (s.setClaim c (some (newClaim s v p r.tag))).load q = s.load q + if p = q then 1 else 0 := by
      rw [State.load_eq, State.load_eq]
      have same : State.flightReservation (s.setClaim c (some (newClaim s v p r.tag))) q = s.flightReservation q := rfl
      simp only [State.setClaim_hpi, State.setClaim_fifos, State.setClaim_waits, newClaim] at same ⊢
      omega
    unfold Machine.claimNow State.answer
    rw [State.load_push, made]
    split
    · rename_i e
      subst e
      omega
    · exact le
  | claimWaits r p v x room =>
    have room : s.load p + 3 ≤ Config.queueEntries := room law entries
    unfold State.answer
    rw [State.load_push, State.load_eq]
    rw [State.load_eq] at le room
    have same : State.flightReservation { s with waits := s.waits ++ [({ port := p, vol := v, tag := r.tag } : Waiter)] } q
        = s.flightReservation q
      ∧ State.notices { s with waits := s.waits ++ [({ port := p, vol := v, tag := r.tag } : Waiter)] } q = s.notices q := ⟨rfl, rfl⟩
    simp only [same, List.countP_append, List.countP_singleton, beq_iff_eq]
    split
    · rename_i e
      subst e
      omega
    · omega

theorem Framed.entryLaw (h : Framed s t) (law : s.unformattedLaw) (entries : s.entryLaw) : t.unformattedLaw ∧ t.entryLaw :=
  h.keeps (P := fun t => t.unformattedLaw ∧ t.entryLaw) ⟨law, entries⟩
    (fun _ _ ⟨law, entries⟩ m => ⟨m.unformattedLaw law, fun q => (m.load q).trans (entries q)⟩)
    (fun _ _ ⟨law, entries⟩ a => ⟨a.unformattedLaw law, a.entryLaw law entries⟩)

theorem Queue.entryLaw (h : Queue s t) (law : s.unformattedLaw) (entries : s.entryLaw) : t.entryLaw := by
  obtain ⟨p, o, room, short, begun, fits⟩ := h
  rw [State.entryLaw_iff] at entries ⊢
  have room : s.load p + 1 ≤ Config.queueEntries := room law entries
  intro q
  have le := entries q
  rw [State.load_eq] at le room ⊢
  have same : (s.setFifo p (s.fifos[p] ++ [o])).flightReservation q = s.flightReservation q
    ∧ (s.setFifo p (s.fifos[p] ++ [o])).notices q = s.notices q := ⟨rfl, rfl⟩
  rw [same.1, same.2, State.setFifo_fifos, fifo_set_length]
  simp only [State.setFifo_hpi, State.setFifo_waits, List.length_append, List.length_singleton]
  split
  · rename_i e
    subst e
    omega
  · exact le

/-- The entry reserved for a queued operation is reserved for it in flight (R158). -/
theorem State.takePick_load {o : Op} (idle : s.engine = none) (picked : s.takePick = some (o, t)) (q : Port) : t.load q ≤ s.load q := by
  have resting : s.flightReservation q = 0 := by simp [State.flightReservation, idle]
  rcases State.takePick_cases picked with ⟨-, -, rfl⟩ | ⟨-, p, rest, fifo, rfl⟩
  · exact State.load_le le_rfl le_rfl (by simp [State.flightReservation, flight]) le_rfl le_rfl
  · rw [State.load_eq, State.load_eq, resting]
    have reserved : State.flightReservation { s with
        fifos := s.fifos.set p rest, rr := p, engine := some (flight (some p) o s.values) } q = if p = q then 1 else 0 := by
      simp [State.flightReservation, flight]
    have same : State.notices { s with
        fifos := s.fifos.set p rest, rr := p, engine := some (flight (some p) o s.values) } q = s.notices q := rfl
    rw [reserved, same]
    dsimp only
    rw [fifo_set_length]
    split
    · rename_i e
      subst e
      rw [fifo, List.length_cons]
      omega
    · omega

theorem Begun.load {o : Op} (h : Begun o s t) (q : Port) : t.load q ≤ s.load q := by
  cases h with
  | delete v x j =>
    have begun : (s.begun j (.delete (volByte v))).load q ≤ s.load q := State.load_onFlight q fun _ => ⟨rfl, rfl⟩
    exact begun
  | _ => exact State.load_onFlight q fun _ => ⟨rfl, rfl⟩

theorem Work.load (w : Work s t) (q : Port) : t.load q ≤ s.load q := by
  cases w with
  | runs u t o idle begun picked starts => exact ((startOp_runs starts).load q).trans (State.takePick_load idle picked q)
  | ends u v o st body idle begun picked starts =>
    refine (v.load_finish q st body).trans ?_
    have picks := State.takePick_load idle picked q
    rcases startOp_ends starts with rfl | rfl <;> exact picks

theorem State.load_setMapEntry (c : Option ClaimIx) (i : Nat) (m : MapEntry) (q : Port) : (s.setMapEntry c i m).load q = s.load q := by
  cases c with
  | none => rfl
  | some j => exact s.load_onClaim q j _ fun _ => rfl

theorem State.load_journalled (en : JEntry) (j : Journal) (q : Port) : (s.journalled en j).load q = s.load q := by
  obtain ⟨slot, checked⟩ := State.compactionCheck_frame { s with
    store := s.store.program (positionBase j.sector j.append) (entryBytes en)
    journal := some { j with append := j.append + 1, seq := j.seq + 1 }
    vols := applied en.content s.vols }
  rw [State.journalled, checked]
  rfl

theorem load_afterAccess (v : Vol) (q : Port) : (afterAccess v s).load q ≤ s.load q := by
  unfold afterAccess
  split
  · exact le_rfl
  · dsimp only
    split
    · exact State.load_removeWaiters ..
    · split
      · exact State.load_removeWaiters ..
      · rename_i c _ _ cl entry
        split
        · rename_i held
          exact (State.load_revoke _ q c cl .revoked entry held.1).trans (State.load_removeWaiters ..)
        · exact State.load_removeWaiters ..

theorem load_afterPin (v : Vol) (q : Port) : (afterPin v s).load q ≤ s.load q := by
  unfold afterPin
  split
  · exact ((Moves.revokeVolume _ v .revoked).load q).trans (State.load_removeWaiters ..)
  · exact le_rfl

/-- What completes with an entry answers from reserved entries (R47, R55). -/
theorem load_entryEffect (k : Kind) (e : InFlight) (q : Port) : (entryEffect k e s).load q ≤ s.load q := by
  have forVol : ∀ f : Vol → State → State, (∀ v, (f v s).load q ≤ s.load q) → (forVolume f e s).load q ≤ s.load q := fun f le => by
    unfold forVolume
    split
    · exact le_rfl
    · exact le _
  cases k with
  | deleteVolume => exact forVol _ fun v => State.load_removeWaiters ..
  | setAccess => exact forVol _ fun v => load_afterAccess v q
  | pin => exact forVol _ fun v => load_afterPin v q
  | beginStage =>
    change (afterStage e s).load q ≤ _
    unfold afterStage
    split
    · split
      · exact le_rfl
      · exact (s.load_onClaim q _ _ fun _ => by rfl).le
    · exact le_rfl
  | commit =>
    change (afterCommit e s).load q ≤ _
    unfold afterCommit
    split
    · exact le_rfl
    · exact (s.load_onClaim q _ _ fun _ => by rfl).le
  | _ => exact le_rfl

theorem State.load_portCleared (p q : Port) : (s.portCleared p).load q ≤ s.load q := by
  have claims : (s.portCleared p).notices q = s.notices q := State.notices_congr q fun c => by
    obtain ⟨g, e⟩ := s.portCleared_claims p c
    rw [e]
    cases s.claims[c] <;> rfl
  obtain ⟨cs, e⟩ := s.portCleared_frame p
  rw [e] at claims ⊢
  refine State.load_le ?_ ?_ ?_ claims.le ?_
  · exact queue_set_le s.hpi p q _ (Nat.zero_le _)
  · dsimp only
    rw [fifo_set_length]
    split <;> simp
  · unfold State.flightReservation
    dsimp only
    cases s.engine with
    | none => exact le_rfl
    | some x =>
      dsimp only [Option.map_some]
      split
      · rename_i own
        simp [own]
      · exact le_rfl
  · exact (List.filter_sublist (l := s.waits)).countP_le

/-- A part without claims, waits, operations and responses. -/
theorem State.load_cleared (q : Port) (queue : t.hpi[q].queue = []) (fifos : t.fifos = Vector.replicate 4 []) (idle : t.engine = none)
    (claims : t.claims = Vector.replicate 4 none) (waits : t.waits = []) : t.load q = 0 := by
  rw [State.load_eq, State.notices_eq, queue, fifos, claims, waits]
  simp [State.flightReservation, idle, noticeWeight]

theorem State.poweredOn_entryLaw (s : State) : s.poweredOn.entryLaw := fun p => by
  have empty : s.poweredOn.load p = 0 := State.load_cleared p (by simp [State.poweredOn, State.clearVolatile, Hpi.reset, Hpi.cleared]) rfl rfl rfl rfl
  exact empty.le.trans (Nat.zero_le _)

theorem Event.load (h : Event s b t) (q : Port) : t.load q ≤ s.load q := by
  have fin : ∀ (u : State) st body, u.load q ≤ s.load q → (u.finish st body).load q ≤ s.load q := fun u st body le =>
    (u.load_finish q st body).trans le
  have rest : ∀ u : State, u.hpi = s.hpi.map Hpi.reset → u.fifos = Vector.replicate 4 [] → u.engine = none →
      u.claims = Vector.replicate 4 none → u.waits = [] → u.load q ≤ s.load q := fun u h f e c w => by
    rw [State.load_cleared q (by simp [h, Hpi.reset, Hpi.cleared]) f e c w]
    exact Nat.zero_le _
  have emptied : ∀ u : State, u.hpi = s.hpi → u.fifos = s.fifos → u.engine = s.engine → u.claims = Vector.replicate 4 none →
      u.waits = [] → u.load q ≤ s.load q := fun u h f e c w => by
    refine State.load_le (by rw [h]) (by rw [f]) ?_ ?_ (by simp [w])
    · unfold State.flightReservation
      rw [e]
    · rw [State.notices_eq, c]
      simp [noticeWeight]
  cases h with
  | finished | beginLost | ownLost | compactEraseFails | formatEraseFails | switched | rowWritten =>
    refine fin _ _ _ ?_
    exact le_of_eq (State.load_congr q rfl rfl rfl rfl rfl)
  | eraseEnds e n i m store | programEnds e n pg i m store =>
    refine fin _ _ _ ?_
    rw [State.load_setMapEntry]
    exact le_of_eq (State.load_congr q rfl rfl rfl rfl rfl)
  | verified e v x sl len crc u busy kind phase staged length begins =>
    obtain ⟨j, -, -, rfl⟩ := beginRecord_runs begins
    exact State.load_onFlight q fun _ => ⟨rfl, rfl⟩
  | entry k e en j st body =>
    exact fin _ _ _ ((load_entryEffect k e q).trans (State.load_journalled en j q).le)
  | lost e js j =>
    obtain ⟨d, cleared⟩ := clearDeleting_frame e { s.passedOver j with mode := .degraded }
    refine fin _ _ _ ?_
    rw [cleared]
    exact le_of_eq (State.load_congr q rfl rfl rfl rfl rfl)
  | retried | ownRetried | compactErased | ownAdvances =>
    refine State.load_le le_rfl le_rfl (State.flightReservation_map q rfl ?_).le le_rfl le_rfl
    exact fun _ => ⟨rfl, rfl⟩
  | formatErased e n =>
    unfold Machine.formatErased
    dsimp only
    split
    · refine State.load_le le_rfl le_rfl (State.flightReservation_map q rfl ?_).le le_rfl le_rfl
      exact fun _ => ⟨rfl, rfl⟩
    · refine State.load_le le_rfl le_rfl (State.flightReservation_map q rfl ?_).le le_rfl le_rfl
      exact fun _ => ⟨rfl, rfl⟩
  | pinenRises =>
    refine ((Moves.pinenRises _).load q).trans ?_
    exact State.load_removeWaiters { s with pinen := true } q _ _
  | portCleared p => exact State.load_portCleared p q
  | portServes p => exact State.load_setHpi p q _ le_rfl
  | resetRises cut | powerFalls cut => exact rest _ (congrArg (Vector.map Hpi.reset) (s.abort_hpi cut)) rfl rfl rfl rfl
  | unformatted => exact emptied _ rfl rfl rfl rfl rfl
  | replayed r =>
    obtain ⟨slot, checked⟩ := State.compactionCheck_frame { s.deriveRow.emptyClaims with
      vols := r.dir, journal := some r.journal, skipped := r.skipped, mode := .normal }
    rw [checked]
    exact emptied _ rfl rfl rfl rfl rfl
  | pinenFalls | resetFalls => exact le_of_eq (State.load_congr q rfl rfl rfl rfl rfl)

theorem Reaches.entryLaw (h : Reaches s b t) (law : s.unformattedLaw) (entries : s.entryLaw) : t.entryLaw :=
  h.keepsFrom (fun _ f => (f.entryLaw law entries).2)
    (fun _ _ f q => let ⟨law, entries⟩ := f.entryLaw law entries; q.entryLaw law entries)
    (fun _ _ e q => (e.load q).trans (entries q)) (fun _ _ entries m q => (m.load q).trans (entries q))
    (fun _ _ entries w q => (w.load q).trans (entries q))

end

end Sys2Proof.Machine
end

section
/-! The frame in progress (R156, R157, R169): answers join the tail of a queue, so the response a FETCH has selected stays its
head. -/

namespace Sys2Proof.Machine

/-- Answers have joined the tails of queues, and nothing else of any port has changed (R166). -/
def Answered (hs hs' : Vector Hpi 4) : Prop := ∀ p : Port, ∃ rs, hs'[p] = { hs[p] with queue := hs[p].queue ++ rs }

theorem Answered.refl (hs : Vector Hpi 4) : Answered hs hs := fun _ => ⟨[], by simp⟩

theorem Answered.trans {hs hs' hs'' : Vector Hpi 4} (h : Answered hs hs') (h' : Answered hs' hs'') : Answered hs hs'' := fun p => by
  obtain ⟨rs, e⟩ := h p
  obtain ⟨rs', e'⟩ := h' p
  exact ⟨rs ++ rs', by rw [e', e]; simp⟩

section
variable {s t : State} {b : Bool}

theorem State.adds_answered (p : Port) (rs : List Response) : Answered s.hpi (s.adds p rs) := fun q => by
  by_cases e : p = q
  · subst e
    exact ⟨rs, by simp [State.adds]⟩
  · have : p.val ≠ q.val := fun h => e (Fin.ext h)
    exact ⟨[], by simp [State.adds, Vector.getElem_set_ne _ _ this]⟩

theorem State.told_answered (st : Status) (ws : List Waiter) : Answered s.hpi (s.told st ws) := fun p =>
  ⟨_, by simp only [State.told, Fin.getElem_fin, Vector.getElem_ofFn]; rfl⟩

theorem State.grantAll_answered : Answered s.hpi s.grantAll.hpi :=
  s.grantAll_keeps (P := fun t => Answered s.hpi t.hpi) (.refl _) fun t c w h _ _ =>
    h.trans (State.adds_answered (s := (({ t with waits := t.waits.erase w } : State).setClaim c
      (some (newClaim t w.vol w.port w.tag)))) w.port _)

theorem State.revoke_answered (c : ClaimIx) (n : Notice) : Answered s.hpi (s.revoke c n).hpi := by
  cases entry : s.claims[c] with
  | none =>
    simp only [State.revoke, entry]
    exact .refl _
  | some cl =>
    have called : Answered s.hpi (s.called c cl n).hpi := State.adds_answered _ _
    rw [s.revoke_some c n entry]
    split
    · exact called
    · exact called.trans (State.grantAll_answered (s := (s.called c cl n).freed c cl))

theorem State.lowerClaim_answered (c : ClaimIx) : Answered s.hpi (s.lowerClaim c).hpi := by
  cases entry : s.claims[c] with
  | none => rw [s.lowerClaim_none entry]; exact .refl _
  | some cl =>
    cases state : cl.state with
    | held => rw [s.lowerClaim_held entry state]; exact .refl _
    | revoking =>
      rw [s.lowerClaim_revoking entry state]
      exact State.grantAll_answered (s := s.freed c cl)

theorem State.finish_answered (st : Status) (body : List Byte) : Answered s.hpi (s.finish st body).hpi := by
  cases busy : s.engine with
  | none => simp only [State.finish, busy]; exact .refl _
  | some e =>
    have completed : Answered s.hpi (s.completionQueues e st body) := by
      unfold State.completionQueues
      split
      · exact .refl _
      · split
        · exact .refl _
        · exact State.adds_answered _ _
    rw [s.finish_some busy]
    split
    · exact completed
    · exact completed.trans (State.lowerClaim_answered (s := { s with hpi := s.completionQueues e st body, engine := none }) _)

theorem State.removeWaiters_answered (f : Waiter → Bool) (st : Status) : Answered s.hpi (s.removeWaiters f st).hpi := by
  rw [State.removeWaiters_told]
  exact State.told_answered (s := s) st _

theorem State.revokeVolume_answered (v : Vol) (n : Notice) : Answered s.hpi (s.revokeVolume v n).hpi := by
  unfold State.revokeVolume
  split
  · exact .refl _
  · split
    · exact .refl _
    · split
      · exact State.revoke_answered _ _
      · exact .refl _

theorem entryEffect_answered (k : Kind) (e : InFlight) : Answered s.hpi (entryEffect k e s).hpi := by
  have forVol : ∀ f : Vol → State → State, (∀ v, Answered s.hpi (f v s).hpi) → Answered s.hpi (forVolume f e s).hpi := fun f h => by
    unfold forVolume
    split
    · exact .refl _
    · exact h _
  cases k with
  | deleteVolume => exact forVol _ fun v => State.removeWaiters_answered _ _
  | setAccess =>
    refine forVol _ fun v => ?_
    unfold afterAccess
    split
    · exact .refl _
    · dsimp only
      split
      · exact State.removeWaiters_answered _ _
      · split
        · exact State.removeWaiters_answered _ _
        · split
          · exact (State.removeWaiters_answered _ _).trans (State.revoke_answered _ _)
          · exact State.removeWaiters_answered _ _
  | pin =>
    refine forVol _ fun v => ?_
    unfold afterPin
    split
    · exact (State.removeWaiters_answered _ _).trans (State.revokeVolume_answered _ _)
    · exact .refl _
  | beginStage =>
    change Answered s.hpi (afterStage e s).hpi
    unfold afterStage
    split
    · split <;> exact .refl _
    · exact .refl _
  | commit =>
    change Answered s.hpi (afterCommit e s).hpi
    unfold afterCommit
    split <;> exact .refl _
  | _ => exact .refl _

/-! ### The law of frames in progress -/

/-- Every frame of one port stands as R156, R157 and R169 say. -/
def Hpi.framedWell (h : Hpi) (drives : Bool) : Prop :=
  ∀ f ∈ h.frame, drives = true ∧ ∀ r ∈ f.selected, f.bytes.head? = some fetchKind ∧ h.queue.head? = some r

theorem State.frameLaw_iff : s.frameLaw ↔ ∀ p : Port, s.hpi[p].framedWell (s.drivesSdo p) := Iff.rfl

theorem Hpi.framedWell_of_none {h : Hpi} {d : Bool} (none : h.frame = none) : h.framedWell d := fun f mem => by
  rw [none] at mem
  cases mem

/-- A law of a port that serves and is selected depends on nothing else of the part. -/
theorem State.drivesSdo_congr (p : Port) (powered : t.powered = s.powered) (line : t.resetLine = s.resetLine)
    (rst : t.hpi[p].rst = s.hpi[p].rst) (sel : t.hpi[p].sel = s.hpi[p].sel) : t.drivesSdo p = s.drivesSdo p := by
  simp only [State.drivesSdo, State.serves, powered, line, rst, sel]

theorem State.drivesSdo_setHpi (p : Port) (h : Hpi) (rst : h.rst = s.hpi[p].rst) (sel : h.sel = s.hpi[p].sel) :
    (s.setHpi p h).drivesSdo p = s.drivesSdo p :=
  State.drivesSdo_congr p rfl rfl (by simp [rst]) (by simp [sel])

/-- Answers leave the head of a queue where it is (R169). -/
theorem State.frameLaw_of_answered (law : s.frameLaw) (powered : t.powered = s.powered) (line : t.resetLine = s.resetLine)
    (answered : Answered s.hpi t.hpi) : t.frameLaw := by
  intro p f frame
  obtain ⟨rs, e⟩ := answered p
  rw [State.drivesSdo_congr p powered line (by rw [e]) (by rw [e])]
  rw [e] at frame ⊢
  obtain ⟨drives, selected⟩ := law p f frame
  refine ⟨drives, fun r mem => ?_⟩
  obtain ⟨fetch, head⟩ := selected r mem
  refine ⟨fetch, ?_⟩
  rw [List.head?_append, head]
  rfl

/-- What one port holds is replaced, with a frame that stands well. -/
theorem State.frameLaw_setHpi (law : s.frameLaw) (p : Port) (h : Hpi) (well : h.framedWell ((s.setHpi p h).drivesSdo p)) :
    (s.setHpi p h).frameLaw := by
  rw [State.frameLaw_iff] at law ⊢
  intro q
  by_cases e : p = q
  · subst e
    simpa using well
  · have : p.val ≠ q.val := fun h => e (Fin.ext h)
    have same : (s.setHpi p h).hpi[q] = s.hpi[q] := by simp [Vector.getElem_set_ne _ _ this]
    rw [same, State.drivesSdo_congr (s := s) (t := s.setHpi p h) q rfl rfl (by rw [same]) (by rw [same])]
    exact law q

/-- A frame receives bytes that go on where the ones before have ended; the head of the queue is selected with the first (R168). -/
theorem Frame.receive_framedWell {f : Frame} {h : Hpi} {d : Bool} (frame : h.frame = some f) (well : h.framedWell d) (wire : List Byte)
    (n : Nat) (begins : f.bytes.isPrefixOf wire = true) : Hpi.framedWell { h with frame := some (f.receive h.queue wire n) } d := by
  intro g mem
  cases mem
  obtain ⟨drives, selected⟩ := well f frame
  refine ⟨drives, fun r mem => ?_⟩
  unfold Frame.receive at mem ⊢
  dsimp only at mem ⊢
  split at mem
  · rename_i first
    exact ⟨first.2, mem⟩
  · obtain ⟨fetch, head⟩ := selected r mem
    refine ⟨?_, head⟩
    obtain ⟨k, rest, bytes⟩ : ∃ k rest, f.bytes = k :: rest := by
      cases bytes : f.bytes with
      | nil => rw [bytes] at fetch; cases fetch
      | cons k rest => exact ⟨k, rest, rfl⟩
    obtain ⟨tail, rfl⟩ := List.isPrefixOf_iff_prefix.mp begins
    rw [bytes] at fetch ⊢
    rw [List.length_cons, List.cons_append, List.take_cons (by omega)]
    exact fetch

theorem Move.frameLaw (m : Move s t) (law : s.frameLaw) : t.frameLaw := by
  cases m with
  | outcome p o =>
    refine State.frameLaw_setHpi law p _ ?_
    exact (State.drivesSdo_setHpi p { s.hpi[p] with outcome := o } rfl rfl) ▸ law p
  | select p b quiet =>
    refine State.frameLaw_setHpi law p _ (Hpi.framedWell_of_none ?_)
    change s.hpi[p].frame = none
    rcases quiet with quiet | none
    · cases frame : s.hpi[p].frame with
      | none => rfl
      | some f =>
        have drives := (law p f frame).1
        simp [State.drivesSdo, quiet] at drives
    · exact none
  | openFrame p serves =>
    refine State.frameLaw_setHpi law p _ fun f frame => ?_
    cases frame
    exact ⟨by simpa [State.drivesSdo, State.serves] using serves, fun r mem => nomatch mem⟩
  | receive p wire n =>
    unfold State.receive
    split
    · exact law
    · rename_i f frame
      split
      · rename_i begins
        refine State.frameLaw_setHpi law p _ ?_
        exact (State.drivesSdo_setHpi p { s.hpi[p] with frame := some (f.receive s.hpi[p].queue wire n) } rfl rfl) ▸
          Frame.receive_framedWell frame (law p) wire n begins
      · exact law
  | closeFrame p out => exact State.frameLaw_setHpi law p _ (Hpi.framedWell_of_none rfl)
  | pop p quiet => exact State.frameLaw_setHpi law p _ (Hpi.framedWell_of_none quiet)
  | claimFields | suspend | openView | closeView => exact law
  | withdraw r p w => exact State.frameLaw_of_answered law rfl rfl (State.adds_answered (s := s) p _)
  | revoke c n =>
    have answered := State.revoke_answered (s := s) c n
    obtain ⟨_, _, _, _, _, e, -⟩ := s.revoke_frame c n
    exact State.frameLaw_of_answered law (by rw [e]) (by rw [e]) answered
  | grants =>
    have answered := State.grantAll_answered (s := s)
    obtain ⟨_, _, _, e, -⟩ := s.grantAll_frame
    exact State.frameLaw_of_answered law (by rw [e]) (by rw [e]) answered

theorem Ask.frameLaw (a : Ask s t) (law : s.frameLaw) : t.frameLaw := by
  cases a with
  | answer p r => exact State.frameLaw_of_answered law rfl rfl (State.adds_answered p [r])
  | claimNow r p v c | claimWaits r p v x => exact State.frameLaw_of_answered law rfl rfl (State.adds_answered (s := s) p _)

theorem State.finish_frameLaw (law : s.frameLaw) (st : Status) (body : List Byte) : (s.finish st body).frameLaw := by
  have answered := State.finish_answered (s := s) st body
  obtain ⟨_, _, _, _, e, -⟩ := s.finish_frame st body
  exact State.frameLaw_of_answered law (by rw [e]) (by rw [e]) answered

/-- The law of frames is about ports, power and RESET alone. -/
theorem State.frameLaw_congr (law : s.frameLaw) (hpi : t.hpi = s.hpi) (powered : t.powered = s.powered)
    (line : t.resetLine = s.resetLine) : t.frameLaw :=
  State.frameLaw_of_answered law powered line (hpi ▸ .refl _)

theorem Work.frameLaw (w : Work s t) (law : s.frameLaw) : t.frameLaw := by
  cases w with
  | runs u t o idle begun picked starts =>
    obtain ⟨_, _, _, _, rfl⟩ := s.takePick_frame o u picked
    obtain ⟨_, _, rfl⟩ := (startOp_runs starts).frame
    exact State.frameLaw_congr law rfl rfl rfl
  | ends u v o st body idle begun picked starts =>
    refine State.finish_frameLaw ?_ st body
    obtain ⟨_, _, _, _, rfl⟩ := s.takePick_frame o u picked
    rcases startOp_ends starts with rfl | rfl <;> exact State.frameLaw_congr law rfl rfl rfl

/-- A reset leaves no frame in progress (R157, R174). -/
theorem State.frameLaw_of_reset (hpi : t.hpi = s.hpi.map Hpi.reset) : t.frameLaw := by
  rw [State.frameLaw_iff]
  intro p
  refine Hpi.framedWell_of_none ?_
  simp [hpi, Hpi.reset, Hpi.cleared]

theorem Event.frameLaw (h : Event s b t) (law : s.frameLaw) : t.frameLaw := by
  cases h with
  | finished st body => exact State.finish_frameLaw law st body
  | beginLost | ownLost | compactEraseFails | formatEraseFails | switched | rowWritten =>
    refine State.finish_frameLaw ?_ _ _
    exact State.frameLaw_congr law rfl rfl rfl
  | eraseEnds e n i m store | programEnds e n pg i m store =>
    refine State.finish_frameLaw ?_ _ _
    obtain ⟨cs, eq⟩ := State.setMapEntry_frame { s with store := store } e.op.claim i m
    rw [eq]
    exact State.frameLaw_congr law rfl rfl rfl
  | verified e v x sl len crc u busy kind phase staged length begins =>
    obtain ⟨j, -, -, rfl⟩ := beginRecord_runs begins
    exact State.frameLaw_congr law rfl rfl rfl
  | entry k e en j st body =>
    refine State.finish_frameLaw ?_ _ _
    have answered := entryEffect_answered (s := s.journalled en j) k e
    obtain ⟨_, _, _, _, _, effect⟩ := entryEffect_frame k e (s.journalled en j)
    obtain ⟨slot, checked⟩ := State.compactionCheck_frame { s with
      store := s.store.program (positionBase j.sector j.append) (entryBytes en)
      journal := some { j with append := j.append + 1, seq := j.seq + 1 }
      vols := applied en.content s.vols }
    refine State.frameLaw_of_answered (s := s.journalled en j) ?_ (by rw [effect]) (by rw [effect]) answered
    rw [State.journalled, checked]
    exact State.frameLaw_congr law rfl rfl rfl
  | lost e js j =>
    obtain ⟨d, cleared⟩ := clearDeleting_frame e { s.passedOver j with mode := .degraded }
    refine State.finish_frameLaw ?_ _ _
    rw [cleared]
    exact State.frameLaw_congr law rfl rfl rfl
  | formatErased e n =>
    unfold Machine.formatErased
    dsimp only
    split <;> exact State.frameLaw_congr law rfl rfl rfl
  | pinenRises =>
    refine (Moves.pinenRises _).keeps ?_ fun _ _ law m => m.frameLaw law
    refine State.frameLaw_of_answered law ?_ ?_ (State.removeWaiters_answered (s := { s with pinen := true }) _ _)
    · simp only [State.pinenUp, State.removeWaiters_told]
    · simp only [State.pinenUp, State.removeWaiters_told]
  | portCleared p =>
    obtain ⟨cs, e⟩ := s.portCleared_frame p
    have ports : State.frameLaw (s.setHpi p (Hpi.cleared true s.hpi[p].sel)) :=
      State.frameLaw_setHpi law p _ (Hpi.framedWell_of_none rfl)
    rw [e]
    exact State.frameLaw_congr ports rfl rfl rfl
  | portServes p =>
    refine State.frameLaw_setHpi law p _ fun f frame => ?_
    obtain ⟨drives, selected⟩ := law p f frame
    simp only [State.drivesSdo, State.serves, Bool.and_eq_true] at drives
    exact ⟨by simpa [State.drivesSdo, State.serves, drives.1.1] using drives.2, selected⟩
  | resetRises cut | powerFalls cut => exact State.frameLaw_of_reset (s := s) (congrArg (Vector.map Hpi.reset) (s.abort_hpi cut))
  | resetFalls asserted =>
    intro p f frame
    obtain ⟨drives, -⟩ := law p f frame
    simp [State.drivesSdo, State.serves, asserted] at drives
  | replayed r =>
    obtain ⟨slot, checked⟩ := State.compactionCheck_frame { s.deriveRow.emptyClaims with
      vols := r.dir, journal := some r.journal, skipped := r.skipped, mode := .normal }
    rw [checked]
    exact State.frameLaw_congr law rfl rfl rfl
  | _ => exact State.frameLaw_congr law rfl rfl rfl

theorem Reaches.frameLaw (h : Reaches s b t) (law : s.frameLaw) : t.frameLaw :=
  h.keeps law (fun _ _ e => e.frameLaw law) (fun _ _ law m => m.frameLaw law) (fun _ _ law a => a.frameLaw law)
    (fun _ _ law q => by obtain ⟨_, rfl⟩ := q.frame; exact State.frameLaw_congr law rfl rfl rfl)
    (fun _ _ law w => w.frameLaw law)

end

/-- Settles O54: an answer takes an entry that was free for it or reserved, and joins the tail of its queue. -/
theorem entriesNeverRunOut : Obligations.EntriesNeverRunOut :=
  ⟨fun _ s _ law entries next => exec_keeps next s.poweredOn_entryLaw fun reached => reached.entryLaw law entries,
    fun _ s _ law next => exec_keeps next
      (State.frameLaw_of_reset (s := s) (congrArg (Vector.map Hpi.reset) (s.abort_hpi .during))) fun reached => reached.frameLaw law⟩

end Sys2Proof.Machine
end

section
/-! Claims stay unique by volume and waits by port and volume (R38, R40, R45). -/

namespace Sys2Proof.Machine

/-- Whose claim on which volume an entry is. -/
def Claim.place (cl : Claim) : Vol × Port := (cl.vol, cl.holder)

/-- The law of claims, and with it that of the wait list where `also` asks for it. -/
def State.claimLaws (s : State) (also : Bool) : Prop := s.uniqueLaw ∧ (also = true → s.waitLaw)

section
variable {s t : State} {b also : Bool}

/-- Entries of the Claim Table may be freed and waiters removed; every other entry names its volume and its holder as before. -/
structure Shrinks (s t : State) : Prop where
  claims : ∀ c : ClaimIx, t.claims[c] = none ∨ (t.claims[c]).map Claim.place = (s.claims[c]).map Claim.place
  waits : t.waits.Sublist s.waits

theorem Shrinks.refl (s : State) : Shrinks s s := ⟨fun _ => .inr rfl, .refl _⟩

theorem Shrinks.of_eq (claims : t.claims = s.claims) (waits : t.waits = s.waits) : Shrinks s t :=
  ⟨fun _ => .inr (by rw [claims]), by rw [waits]⟩

theorem Shrinks.trans {u : State} (h : Shrinks s t) (h' : Shrinks t u) : Shrinks s u where
  claims c := by
    rcases h'.claims c with none | same
    · exact .inl none
    · rcases h.claims c with none | same'
      · rw [none, Option.map_none, Option.map_eq_none_iff] at same
        exact .inl same
      · exact .inr (same.trans same')
  waits := h'.waits.trans h.waits

/-- An entry left over from before. -/
theorem Shrinks.claim (h : Shrinks s t) {c : ClaimIx} {cl : Claim} (entry : t.claims[c] = some cl) :
    ∃ x, s.claims[c] = some x ∧ cl.vol = x.vol ∧ cl.holder = x.holder := by
  rcases h.claims c with none | same
  · rw [none] at entry; cases entry
  · rw [entry, Option.map_some] at same
    obtain ⟨x, old, place⟩ := Option.map_eq_some_iff.mp same.symm
    simp only [Claim.place, Prod.mk.injEq] at place
    exact ⟨x, old, place.1.symm, place.2.symm⟩

theorem Shrinks.claimLaws (h : Shrinks s t) (laws : s.claimLaws also) : t.claimLaws also := by
  obtain ⟨unique, wait⟩ := laws
  refine ⟨fun c d x hx y hy same => ?_, fun asked => ?_⟩
  · obtain ⟨x', old, vol, -⟩ := h.claim hx
    obtain ⟨y', old', vol', -⟩ := h.claim hy
    exact unique c d x' old y' old' (by rw [← vol, ← vol', same])
  · obtain ⟨short, once, apart⟩ := wait asked
    refine ⟨h.waits.length_le.trans short, (h.waits.map _).nodup once, fun w waiting c x hx both => ?_⟩
    obtain ⟨x', old, vol, holder⟩ := h.claim hx
    exact apart w (h.waits.subset waiting) c x' old (by rwa [vol, holder] at both)

/-- One entry of the Claim Table replaced by none or by a claim of the same port on the same volume. -/
theorem Shrinks.setClaim {c : ClaimIx} {x : Option Claim} (h : Shrinks s t)
    (same : x = none ∨ x.map Claim.place = (t.claims[c]).map Claim.place) : Shrinks s (t.setClaim c x) := by
  refine h.trans ⟨fun d => ?_, .refl _⟩
  by_cases e : c = d
  · subst e
    simpa using same
  · have : c.val ≠ d.val := fun h => e (Fin.ext h)
    exact .inr (by simp [Vector.getElem_set_ne _ _ this])

theorem Shrinks.onClaim {c : ClaimIx} {f : Claim → Claim} (h : Shrinks s t) (same : ∀ cl, (f cl).identity = cl.identity) :
    Shrinks s (t.onClaim c f) := by
  refine h.setClaim (.inr ?_)
  cases t.claims[c] with
  | none => rfl
  | some cl =>
    have := same cl
    simp only [Claim.identity, Prod.mk.injEq] at this
    simp [Claim.place, this]

theorem Shrinks.freed {c : ClaimIx} {cl : Claim} (h : Shrinks s t) : Shrinks s (t.freed c cl) :=
  (h.setClaim (x := none) (.inl rfl)).trans (.of_eq rfl rfl)

/-- An unclaimed volume is claimed by a port that does not wait for it any more (R41, R46). -/
theorem State.claimLaws.claim (laws : s.claimLaws also) {c : ClaimIx} {new : Claim} (claims : t.claims = s.claims.set c (some new))
    (waits : t.waits.Sublist s.waits) (unclaimed : ∀ d : ClaimIx, ∀ cl ∈ s.claims[d], cl.vol ≠ new.vol)
    (gone : also = true → ∀ w ∈ t.waits, ¬(w.port = new.holder ∧ w.vol = new.vol)) : t.claimLaws also := by
  obtain ⟨unique, wait⟩ := laws
  have made : ∀ d : ClaimIx, ∀ x ∈ t.claims[d], (d = c ∧ x = new) ∨ x ∈ s.claims[d] := fun d x hx => by
    rw [claims] at hx
    by_cases e : c = d
    · subst e
      simp only [Fin.getElem_fin, Vector.getElem_set_self, Option.mem_def, Option.some.injEq] at hx
      exact .inl ⟨rfl, hx.symm⟩
    · have : c.val ≠ d.val := fun h => e (Fin.ext h)
      simp only [Fin.getElem_fin, Vector.getElem_set_ne _ _ this] at hx
      exact .inr hx
  refine ⟨fun c' d x hx y hy same => ?_, fun asked => ?_⟩
  · rcases made c' x hx with ⟨e, rfl⟩ | old <;> rcases made d y hy with ⟨e', rfl⟩ | old'
    · rw [e, e']
    · exact absurd same.symm (unclaimed d y old')
    · exact absurd same (unclaimed c' x old)
    · exact unique c' d x old y old' same
  · obtain ⟨short, once, apart⟩ := wait asked
    refine ⟨waits.length_le.trans short, (waits.map _).nodup once, fun w left d x hx both => ?_⟩
    rcases made d x hx with ⟨-, rfl⟩ | old
    · exact gone asked w left ⟨both.2.symm, both.1.symm⟩
    · exact apart w (waits.subset left) d x old both

/-- A granted waiter has left the list, and no other of its port and volume was on it (R45, R46). -/
theorem State.claimLaws.grantTo (laws : s.claimLaws also) {c : ClaimIx} {w : Waiter} (waiting : w ∈ s.waits)
    (unclaimed : ∀ d : ClaimIx, ∀ cl ∈ s.claims[d], cl.vol ≠ w.vol) : (s.grantTo c w).claimLaws also := by
  refine laws.claim (new := newClaim s w.vol w.port w.tag) rfl List.erase_sublist unclaimed fun asked u left both => ?_
  have nodup := ((List.perm_cons_erase waiting).map (fun w => (w.port, w.vol))).nodup_iff.mp (laws.2 asked).2.1
  rw [List.map_cons, List.nodup_cons] at nodup
  exact nodup.1 (List.mem_map.mpr ⟨u, left, Prod.ext both.1 both.2⟩)

theorem State.claimLaws.grantAll (laws : s.claimLaws also) : s.grantAll.claimLaws also :=
  s.grantAll_keeps (P := fun t => t.claimLaws also) laws fun t c w laws _ found => by
    have eligible := List.find?_some found
    obtain ⟨x, -, -, unclaimed, -⟩ := (State.eligible_iff t w).mp eligible
    exact laws.grantTo (List.mem_of_find?_eq_some found) unclaimed

theorem Shrinks.called {c : ClaimIx} {cl : Claim} {n : Notice} : Shrinks s (s.called c cl n) := .of_eq rfl rfl

theorem State.claimLaws.revoke (laws : s.claimLaws also) (c : ClaimIx) (n : Notice) : (s.revoke c n).claimLaws also := by
  cases entry : s.claims[c] with
  | none => simpa only [State.revoke, entry] using laws
  | some cl =>
    rw [s.revoke_some c n entry]
    split
    · refine Shrinks.claimLaws (s := s) (Shrinks.called.setClaim (.inr ?_)) laws
      change _ = (s.claims[c]).map Claim.place
      rw [entry]
      rfl
    · exact State.claimLaws.grantAll ((Shrinks.called.freed).claimLaws laws)

theorem State.claimLaws.lowerClaim (laws : s.claimLaws also) (c : ClaimIx) : (s.lowerClaim c).claimLaws also := by
  cases entry : s.claims[c] with
  | none => rwa [s.lowerClaim_none entry]
  | some cl =>
    cases state : cl.state with
    | held =>
      rw [s.lowerClaim_held entry state]
      refine Shrinks.claimLaws (s := s) ((Shrinks.refl s).setClaim (.inr ?_)) laws
      rw [entry]
      rfl
    | revoking =>
      rw [s.lowerClaim_revoking entry state]
      exact State.claimLaws.grantAll ((Shrinks.refl s).freed.claimLaws laws)

theorem State.claimLaws.finish (laws : s.claimLaws also) (st : Status) (body : List Byte) : (s.finish st body).claimLaws also := by
  cases busy : s.engine with
  | none => simpa only [State.finish, busy] using laws
  | some e =>
    rw [s.finish_some busy]
    split
    · exact (Shrinks.of_eq (s := s) rfl rfl).claimLaws laws
    · refine State.claimLaws.lowerClaim ?_ _
      exact (Shrinks.of_eq (s := s) rfl rfl).claimLaws laws

theorem Shrinks.removeWaiters (h : Shrinks s t) (f : Waiter → Bool) (st : Status) : Shrinks s (t.removeWaiters f st) := by
  rw [State.removeWaiters_told]
  exact h.trans ⟨fun _ => .inr rfl, List.filter_sublist⟩

theorem Move.claimLaws (m : Move s t) (laws : s.claimLaws also) : t.claimLaws also := by
  cases m with
  | claimFields c f same => exact ((Shrinks.refl s).onClaim same).claimLaws laws
  | withdraw r p w waits => exact Shrinks.claimLaws (s := s) ⟨fun _ => .inr rfl, List.erase_sublist⟩ laws
  | revoke c n => exact laws.revoke c n
  | grants => exact laws.grantAll
  | receive p wire n =>
    unfold State.receive
    split
    · exact laws
    · split <;> exact (Shrinks.of_eq (s := s) rfl rfl).claimLaws laws
  | _ => exact (Shrinks.of_eq (s := s) rfl rfl).claimLaws laws

theorem Moves.claimLaws (ms : Moves s t) (laws : s.claimLaws also) : t.claimLaws also := ms.keeps laws fun _ _ laws m => m.claimLaws laws

theorem State.waitsFor_false {p : Port} {v : Vol} (noWait : s.waitsFor p v = false) :
    ∀ w ∈ s.waits, ¬(w.port = p ∧ w.vol = v) := fun w waits both => by
  have : s.waitsFor p v = true := List.any_eq_true.mpr ⟨w, waits, by simp [both]⟩
  rw [noWait] at this
  cases this

/-- A waiter that is not on the list and holds no claim on the volume may join it (R40, R45). -/
theorem State.claimLaws.joinWaits (laws : s.claimLaws also) {p : Port} {v : Vol} (tag : Byte) (stranger : s.ownClaim p v = none)
    (noWait : s.waitsFor p v = false) (short : s.waits.length < Config.waitEntries) :
    State.claimLaws { s with waits := s.waits ++ [{ port := p, vol := v, tag := tag }] } also := by
  obtain ⟨unique, wait⟩ := laws
  refine ⟨unique, fun asked => ?_⟩
  obtain ⟨-, once, apart⟩ := wait asked
  refine ⟨by simpa using short, ?_, fun w waits c x hx both => ?_⟩
  · simp only [List.map_append, List.map_cons, List.map_nil, List.nodup_append, List.nodup_singleton, true_and, once]
    intro x hx y hy same
    rw [List.mem_singleton] at hy
    obtain ⟨w, waits, rfl⟩ := List.mem_map.mp hx
    subst hy
    simp only [Prod.mk.injEq] at same
    exact State.waitsFor_false noWait w waits same
  · rcases List.mem_append.mp waits with waits | last
    · exact apart w waits c x hx both
    · rw [List.mem_singleton] at last
      subst last
      cases claimed : s.claimOf v with
      | none => exact (State.claimOf_none s v).mp claimed c x hx both.1
      | some d =>
        obtain ⟨y, entry, vol⟩ := State.claimOf_some s v d claimed
        have same := unique c d x hx y entry (both.1.trans vol.symm)
        subst same
        rw [show s.claims[c] = some x from hx] at entry
        cases entry
        simp [State.ownClaim, claimed, show s.claims[c] = some x from hx, both.2] at stranger

theorem Ask.claimLaws (a : Ask s t) (laws : s.claimLaws also) : t.claimLaws also := by
  cases a with
  | answer => exact (Shrinks.of_eq (s := s) rfl rfl).claimLaws laws
  | claimNow r p v c x room used stays unpinned unclaimed noWait free =>
    refine laws.claim (new := newClaim s v p r.tag) rfl (.refl _) ((State.claimOf_none s v).mp unclaimed) fun _ w waits both => ?_
    exact State.waitsFor_false noWait w waits both
  | claimWaits r p v x room used unpinned stranger noWait short =>
    exact (Shrinks.of_eq (s := { s with waits := s.waits ++ [({ port := p, vol := v, tag := r.tag } : Waiter)] }) rfl rfl).claimLaws
      (laws.joinWaits r.tag stranger noWait short)

theorem Work.claimLaws (w : Work s t) (laws : s.claimLaws also) : t.claimLaws also := by
  cases w with
  | runs u t o idle begun picked starts =>
    obtain ⟨_, _, _, _, rfl⟩ := s.takePick_frame o u picked
    obtain ⟨_, _, rfl⟩ := (startOp_runs starts).frame
    exact (Shrinks.of_eq (s := s) rfl rfl).claimLaws laws
  | ends u v o st body idle begun picked starts =>
    refine State.claimLaws.finish ?_ st body
    obtain ⟨_, _, _, _, rfl⟩ := s.takePick_frame o u picked
    rcases startOp_ends starts with rfl | rfl <;> exact (Shrinks.of_eq (s := s) rfl rfl).claimLaws laws

theorem Shrinks.portCleared (p : Port) : Shrinks s (s.portCleared p) := by
  refine ⟨fun c => .inr ?_, ?_⟩
  · obtain ⟨g, e⟩ := s.portCleared_claims p c
    rw [e]
    cases s.claims[c] <;> rfl
  · obtain ⟨cs, e⟩ := s.portCleared_frame p
    rw [e]
    exact List.filter_sublist

/-- No claim and no waiter is left. -/
theorem Shrinks.empty (claims : t.claims = Vector.replicate 4 none) (waits : t.waits = []) : Shrinks s t :=
  ⟨fun c => .inl (by simp [claims]), by rw [waits]; exact List.nil_sublist _⟩

theorem Shrinks.setMapEntry (h : Shrinks s t) (c : Option ClaimIx) (i : Nat) (m : MapEntry) : Shrinks s (t.setMapEntry c i m) := by
  cases c with
  | none => exact h
  | some j => exact h.onClaim fun _ => rfl

theorem State.claimLaws.afterAccess (laws : s.claimLaws also) (v : Vol) : (afterAccess v s).claimLaws also := by
  unfold Machine.afterAccess
  split
  · exact laws
  · have removed := fun f st => ((Shrinks.refl s).removeWaiters f st).claimLaws laws
    dsimp only
    split
    · exact removed _ _
    · split
      · exact removed _ _
      · split
        · exact (removed _ _).revoke _ _
        · exact removed _ _

theorem State.claimLaws.afterPin (laws : s.claimLaws also) (v : Vol) : (afterPin v s).claimLaws also := by
  unfold Machine.afterPin
  split
  · exact (Moves.revokeVolume _ v .revoked).claimLaws (((Shrinks.refl s).removeWaiters _ _).claimLaws laws)
  · exact laws

theorem State.claimLaws.entryEffect (laws : s.claimLaws also) (k : Kind) (e : InFlight) : (entryEffect k e s).claimLaws also := by
  have forVol : ∀ f : Vol → State → State, (∀ v, (f v s).claimLaws also) → (forVolume f e s).claimLaws also := fun f h => by
    unfold forVolume
    split
    · exact laws
    · exact h _
  cases k with
  | deleteVolume => exact forVol _ fun v => ((Shrinks.refl s).removeWaiters _ _).claimLaws laws
  | setAccess => exact forVol _ laws.afterAccess
  | pin => exact forVol _ laws.afterPin
  | beginStage =>
    change (Machine.afterStage e s).claimLaws also
    unfold Machine.afterStage
    split
    · split
      · exact laws
      · exact ((Shrinks.refl s).onClaim fun _ => by rfl).claimLaws laws
    · exact laws
  | commit =>
    change (Machine.afterCommit e s).claimLaws also
    unfold Machine.afterCommit
    split
    · exact laws
    · exact ((Shrinks.refl s).onClaim fun _ => by rfl).claimLaws laws
  | _ => exact laws

theorem Event.claimLaws (h : Event s b t) (laws : s.claimLaws also) : t.claimLaws also := by
  have same : ∀ u : State, u.claims = s.claims → u.waits = s.waits → u.claimLaws also := fun u c w => (Shrinks.of_eq c w).claimLaws laws
  cases h with
  | finished st body => exact laws.finish st body
  | beginLost | ownLost | compactEraseFails | formatEraseFails | switched | rowWritten =>
    refine State.claimLaws.finish ?_ _ _
    exact same _ rfl rfl
  | eraseEnds e n i m store | programEnds e n pg i m store =>
    refine State.claimLaws.finish ?_ _ _
    exact ((Shrinks.of_eq (s := s) (t := { s with store := store }) rfl rfl).setMapEntry _ _ _).claimLaws laws
  | verified e v x sl len crc u busy kind phase staged length begins =>
    obtain ⟨j, -, -, rfl⟩ := beginRecord_runs begins
    exact same _ rfl rfl
  | entry k e en j st body =>
    refine State.claimLaws.finish (State.claimLaws.entryEffect ?_ k e) _ _
    obtain ⟨slot, checked⟩ := State.compactionCheck_frame { s with
      store := s.store.program (positionBase j.sector j.append) (entryBytes en)
      journal := some { j with append := j.append + 1, seq := j.seq + 1 }
      vols := applied en.content s.vols }
    rw [State.journalled, checked]
    exact same _ rfl rfl
  | lost e js j =>
    obtain ⟨d, cleared⟩ := clearDeleting_frame e { s.passedOver j with mode := .degraded }
    refine State.claimLaws.finish ?_ _ _
    rw [cleared]
    exact same _ rfl rfl
  | formatErased e n =>
    unfold Machine.formatErased
    dsimp only
    split <;> exact same _ rfl rfl
  | pinenRises =>
    refine (Moves.pinenRises _).claimLaws ?_
    exact ((Shrinks.of_eq (s := s) (t := { s with pinen := true }) rfl rfl).removeWaiters _ _).claimLaws laws
  | portCleared p => exact (Shrinks.portCleared p).claimLaws laws
  | resetRises | powerFalls | unformatted => exact (Shrinks.empty (s := s) rfl rfl).claimLaws laws
  | replayed r =>
    obtain ⟨slot, checked⟩ := State.compactionCheck_frame { s.deriveRow.emptyClaims with
      vols := r.dir, journal := some r.journal, skipped := r.skipped, mode := .normal }
    rw [checked]
    exact (Shrinks.empty (s := s) rfl rfl).claimLaws laws
  | _ => exact same _ rfl rfl

theorem Reaches.claimLaws (h : Reaches s b t) (laws : s.claimLaws also) : t.claimLaws also :=
  h.keeps laws (fun _ _ e => e.claimLaws laws) (fun _ _ laws m => m.claimLaws laws) (fun _ _ laws a => a.claimLaws laws)
    (fun u _ laws q => by obtain ⟨_, rfl⟩ := q.frame; exact (Shrinks.of_eq (s := u) rfl rfl).claimLaws laws)
    (fun _ _ laws w => w.claimLaws laws)

theorem Shrinks.uniqueLaw (h : Shrinks s t) (unique : s.uniqueLaw) : t.uniqueLaw :=
  (h.claimLaws (also := false) ⟨unique, fun asked => nomatch asked⟩).1

theorem Move.uniqueLaw (m : Move s t) (unique : s.uniqueLaw) : t.uniqueLaw :=
  (m.claimLaws (also := false) ⟨unique, fun asked => nomatch asked⟩).1

theorem Ask.uniqueLaw (a : Ask s t) (unique : s.uniqueLaw) : t.uniqueLaw :=
  (a.claimLaws (also := false) ⟨unique, fun asked => nomatch asked⟩).1

theorem Work.uniqueLaw (w : Work s t) (unique : s.uniqueLaw) : t.uniqueLaw :=
  (w.claimLaws (also := false) ⟨unique, fun asked => nomatch asked⟩).1

theorem Event.uniqueLaw (h : Event s b t) (unique : s.uniqueLaw) : t.uniqueLaw :=
  (h.claimLaws (also := false) ⟨unique, fun asked => nomatch asked⟩).1

theorem State.finish_uniqueLaw (unique : s.uniqueLaw) (st : Status) (body : List Byte) : (s.finish st body).uniqueLaw :=
  (State.claimLaws.finish (also := false) ⟨unique, fun asked => nomatch asked⟩ st body).1

end

/-- Settles O56: claims are made on unclaimed volumes and waits begun by ports that have none, and all else frees and removes. -/
theorem claimsAndWaitsStayUnique : Obligations.ClaimsAndWaitsStayUnique := fun _ _ _ unique wait next => by
  obtain ⟨unique, wait⟩ := exec_keeps next (P := fun t => t.claimLaws true)
    ((Shrinks.empty rfl rfl).claimLaws ⟨unique, fun _ => wait⟩) fun reached => reached.claimLaws ⟨unique, fun _ => wait⟩
  exact ⟨unique, wait rfl⟩

end Sys2Proof.Machine
end

section
/-! The effect of a journal record on the directory (R8 to R11, R16, R18, R19, R124, R138, R140): one record of one volume. -/

namespace Sys2Proof.Machine

/-- What a record makes of the directory record of its volume, with the condition of R124 that it has met. -/
inductive Effect : JRecord → Option Volume → Option Volume → Prop
  | create (b : Byte) (label : Half) (size : Byte) (baseA baseB : Half) (rd wr : Byte)
    (fits : placed size.toNat baseA.toNat baseB.toNat = true) : Effect (.create b label size baseA baseB rd wr) none
      (some (Volume.created label size.toNat baseA.toNat baseB.toNat (rd.setWidth 4) (wr.setWidth 4)))
  | delete (b : Byte) (x : Volume) : Effect (.delete b) (some x) none
  | access (b rd wr : Byte) (x : Volume) : Effect (.access b rd wr) (some x)
      (some { x with readers := rd.setWidth 4, writers := wr.setWidth 4 })
  | pin (b : Byte) (x : Volume) : Effect (.pin b) (some x) (some { x with pinned := true })
  | unpin (b : Byte) (x : Volume) : Effect (.unpin b) (some x) (some { x with pinned := false })
  | stage (b c : Byte) (sl : Slot) (x : Volume) (slot : slotOfCode c = some sl) (notActive : (x.slot sl).state ≠ .active)
    (noStaging : (x.slot sl.other).state ≠ .staging) : Effect (.stage b c) (some x) (some (x.stage sl))
  | commit (b c : Byte) (sl : Slot) (gen len crc : Word) (x : Volume) (slot : slotOfCode c = some sl)
    (staging : (x.slot sl).state = .staging) (next : gen.toNat = x.genCounter + 1) :
    Effect (.commit b c gen len crc) (some x) (some (x.commit sl { gen := gen.toNat, len := len.toNat, crc := crc }))
  | rollback (b : Byte) (x : Volume) (previous : (x.slotIn .previous).isSome = true) :
    Effect (.rollback b) (some x) (some x.rollback)

section
variable {d e : Directory} {v : Vol} {r : JRecord}

theorem onVolume_some {b : Byte} {f : Volume → Option Volume} (h : onVolume d b f = some e) :
    ∃ v x y, volIndex b = some v ∧ d[v] = some x ∧ f x = some y ∧ e = d.set v (some y) := by
  unfold onVolume at h
  split at h
  · cases h
  · rename_i v named
    split at h
    · cases h
    · rename_i x used
      split at h
      · cases h
      · rename_i y changed
        cases h
        exact ⟨v, x, y, named, used, changed, rfl⟩

/-- A record that is applied changes the record of its own volume (R124). -/
theorem applyRecord_some (h : applyRecord r d = some e) :
    ∃ v y, volIndex (recordVol r) = some v ∧ Effect r d[v] y ∧ e = d.set v y := by
  cases r with
  | create b label size baseA baseB rd wr =>
    simp only [applyRecord] at h
    split at h
    · cases h
    · rename_i v named
      split at h
      · rename_i met
        cases h
        refine ⟨v, _, named, ?_, rfl⟩
        rw [met.1]
        exact .create b label size baseA baseB rd wr met.2
      · cases h
  | delete b =>
    simp only [applyRecord] at h
    split at h
    · cases h
    · rename_i v named
      split at h
      · cases h
      · rename_i used
        cases h
        obtain ⟨x, used⟩ := Option.ne_none_iff_exists'.mp used
        refine ⟨v, none, named, ?_, rfl⟩
        rw [used]
        exact .delete b x
  | access b rd wr =>
    simp only [applyRecord] at h
    obtain ⟨v, x, y, named, used, changed, rfl⟩ := onVolume_some h
    cases changed
    exact ⟨v, _, named, used ▸ .access b rd wr x, rfl⟩
  | pin b =>
    simp only [applyRecord] at h
    obtain ⟨v, x, y, named, used, changed, rfl⟩ := onVolume_some h
    cases changed
    exact ⟨v, _, named, used ▸ .pin b x, rfl⟩
  | unpin b =>
    simp only [applyRecord] at h
    obtain ⟨v, x, y, named, used, changed, rfl⟩ := onVolume_some h
    cases changed
    exact ⟨v, _, named, used ▸ .unpin b x, rfl⟩
  | stage b c =>
    simp only [applyRecord] at h
    obtain ⟨v, x, y, named, used, changed, rfl⟩ := onVolume_some h
    refine ⟨v, some y, named, used ▸ ?_, rfl⟩
    split at changed
    · cases changed
    · rename_i sl slot
      split at changed
      · rename_i met
        cases changed
        exact .stage b c sl x slot met.1 met.2
      · cases changed
  | commit b c gen len crc =>
    simp only [applyRecord] at h
    obtain ⟨v, x, y, named, used, changed, rfl⟩ := onVolume_some h
    refine ⟨v, some y, named, used ▸ ?_, rfl⟩
    split at changed
    · cases changed
    · rename_i sl slot
      split at changed
      · rename_i met
        cases changed
        exact .commit b c sl gen len crc x slot met.1 met.2
      · cases changed
  | rollback b =>
    simp only [applyRecord] at h
    obtain ⟨v, x, y, named, used, changed, rfl⟩ := onVolume_some h
    refine ⟨v, some y, named, used ▸ ?_, rfl⟩
    split at changed
    · rename_i met
      cases changed
      exact .rollback b x met
    · cases changed
  | header | snapVol | snapSlot | snapEnd => cases h

theorem onVolume_eq {b : Byte} {f : Volume → Option Volume} {x y : Volume} (named : volIndex b = some v) (used : d[v] = some x)
    (changed : f x = some y) : onVolume d b f = some (d.set v (some y)) := by
  simp only [onVolume, named, used, changed]

/-- A record whose condition of R124 holds is applied. -/
theorem applyRecord_of_effect {y : Option Volume} (named : volIndex (recordVol r) = some v) (h : Effect r d[v] y) :
    applyRecord r d = some (d.set v y) := by
  generalize before : d[v] = z at h
  cases h with
  | create b label size baseA baseB rd wr fits =>
    simp only [recordVol] at named
    simp only [applyRecord, named, before, fits, and_self, if_true]
  | delete b x =>
    simp only [recordVol] at named
    simp [applyRecord, named, show d[v.val] = some x from before]
  | access b rd wr x => exact onVolume_eq (f := fun x => some { x with readers := rd.setWidth 4, writers := wr.setWidth 4 }) named before rfl
  | pin b x => exact onVolume_eq (f := fun x => some { x with pinned := true }) named before rfl
  | unpin b x => exact onVolume_eq (f := fun x => some { x with pinned := false }) named before rfl
  | stage b c sl x slot notActive noStaging =>
    exact onVolume_eq named before (by simp only [slot]; rw [if_pos ⟨notActive, noStaging⟩])
  | commit b c sl gen len crc x slot staging next =>
    exact onVolume_eq named before (by simp only [slot]; rw [if_pos ⟨staging, next⟩])
  | rollback b x previous => exact onVolume_eq named before (if_pos previous)

/-- The directory after a record is that before it, or differs in the one record that the effect names. -/
theorem applied_cases (r : JRecord) (d : Directory) :
    applied r d = d ∨ ∃ v y, volIndex (recordVol r) = some v ∧ Effect r d[v] y ∧ applied r d = d.set v y := by
  unfold applied
  cases h : applyRecord r d with
  | none => exact .inl rfl
  | some e =>
    obtain ⟨v, y, named, effect, rfl⟩ := applyRecord_some h
    exact .inr ⟨v, y, named, effect, rfl⟩

/-- One record after another has been replaced. -/
theorem directory_set_get (d : Directory) (v w : Vol) (y : Option Volume) : (d.set v y)[w] = if v = w then y else d[w] := by
  by_cases e : v = w
  · subst e
    simp
  · have : v.val ≠ w.val := fun h => e (Fin.ext h)
    simp [e, Vector.getElem_set_ne _ _ this]

/-- Each record of the directory after a journal record: as before, or as the effect of the record on it. -/
theorem applied_get (r : JRecord) (d : Directory) (w : Vol) :
    (applied r d)[w] = d[w] ∨ (volIndex (recordVol r) = some w ∧ Effect r d[w] (applied r d)[w]) := by
  rcases applied_cases r d with same | ⟨v, y, named, effect, changed⟩
  · exact .inl (by rw [same])
  · rw [changed, directory_set_get]
    split
    · rename_i e
      subst e
      exact .inr ⟨named, effect⟩
    · exact .inl rfl

end

end Sys2Proof.Machine
end

section
/-! While PINEN is asserted no HELD claim and no waiter names a pinned volume (R136, R139, R141, R145). -/

namespace Sys2Proof.Machine

/-- PINEN is asserted and the volume is pinned (R136). -/
def State.pinnedNow (s : State) (v : Vol) : Prop := s.pinen = true ∧ ∃ x ∈ s.vols[v], x.pinned = true

/-- No HELD claim names the volume. -/
def State.unheld (s : State) (v : Vol) : Prop := ∀ c : ClaimIx, ∀ cl ∈ s.claims[c], cl.vol = v → cl.state ≠ .held

/-- No waiter names the volume. -/
def State.unwaited (s : State) (v : Vol) : Prop := ∀ w ∈ s.waits, w.vol ≠ v

/-- A pinned volume has no HELD claim. -/
def State.pinUnheld (s : State) (v : Vol) : Prop := s.pinnedNow v → s.unheld v

/-- A pinned volume has no waiter. -/
def State.pinUnwaited (s : State) (v : Vol) : Prop := s.pinnedNow v → s.unwaited v

section
variable {s t : State} {b : Bool} {v : Vol}

theorem State.pinLaw_iff : s.pinLaw ↔ ∀ v, s.pinUnheld v ∧ s.pinUnwaited v := by
  constructor
  · exact fun law v => ⟨fun ⟨up, x, used, pin⟩ => (law up v x used pin).1, fun ⟨up, x, used, pin⟩ => (law up v x used pin).2⟩
  · exact fun law up v x used pin => ⟨(law v).1 ⟨up, x, used, pin⟩, (law v).2 ⟨up, x, used, pin⟩⟩

/-- No volume is newly pinned, no claim newly HELD and no wait new. -/
structure Yields (s t : State) : Prop where
  pinned : ∀ v, t.pinnedNow v → s.pinnedNow v
  held : ∀ c : ClaimIx, ∀ cl ∈ t.claims[c], cl.state = .held → ∃ d : ClaimIx, ∃ x ∈ s.claims[d], x.vol = cl.vol ∧ x.state = .held
  waits : ∀ w ∈ t.waits, w ∈ s.waits

theorem Yields.refl (s : State) : Yields s s := ⟨fun _ h => h, fun c cl mem held => ⟨c, cl, mem, rfl, held⟩, fun _ h => h⟩

theorem Yields.of_eq (pinen : t.pinen = s.pinen) (vols : t.vols = s.vols) (claims : t.claims = s.claims) (waits : t.waits = s.waits) :
    Yields s t where
  pinned v := by unfold State.pinnedNow; rw [pinen, vols]; exact id
  held c cl mem held := ⟨c, cl, by rwa [claims] at mem, rfl, held⟩
  waits w mem := by rwa [waits] at mem

theorem Yields.trans {u : State} (h : Yields s t) (h' : Yields t u) : Yields s u where
  pinned v pin := h.pinned v (h'.pinned v pin)
  held c cl mem held := by
    obtain ⟨d, x, mem', vol, held'⟩ := h'.held c cl mem held
    obtain ⟨d', y, mem'', vol', held''⟩ := h.held d x mem' held'
    exact ⟨d', y, mem'', vol'.trans vol, held''⟩
  waits w mem := h.waits w (h'.waits w mem)

theorem Yields.pinUnheld (h : Yields s t) (law : s.pinUnheld v) : t.pinUnheld v := fun pin c cl mem vol held => by
  obtain ⟨d, x, old, vol', held'⟩ := h.held c cl mem held
  exact law (h.pinned v pin) d x old (vol'.trans vol) held'

theorem Yields.pinUnwaited (h : Yields s t) (law : s.pinUnwaited v) : t.pinUnwaited v := fun pin w mem =>
  law (h.pinned v pin) w (h.waits w mem)

/-- One entry replaced by none, or by a claim that is not HELD unless the one before was, on the same volume. -/
theorem Yields.setClaim {c : ClaimIx} {x : Option Claim} (h : Yields s t)
    (same : ∀ cl ∈ x, cl.state = .held → ∃ old ∈ t.claims[c], old.vol = cl.vol ∧ old.state = .held) : Yields s (t.setClaim c x) := by
  refine h.trans ⟨fun _ pin => pin, fun d cl mem held => ?_, fun _ mem => mem⟩
  by_cases e : c = d
  · subst e
    have mem : cl ∈ x := by simpa using mem
    obtain ⟨old, entry, vol, was⟩ := same cl mem held
    exact ⟨c, old, entry, vol, was⟩
  · have : c.val ≠ d.val := fun h => e (Fin.ext h)
    exact ⟨d, cl, by simpa [Vector.getElem_set_ne _ _ this] using mem, rfl, held⟩

theorem Yields.onClaim {c : ClaimIx} {f : Claim → Claim} (h : Yields s t) (same : ∀ cl, (f cl).identity = cl.identity) :
    Yields s (t.onClaim c f) := by
  refine h.setClaim fun cl mem held => ?_
  obtain ⟨old, entry, rfl⟩ := Option.map_eq_some_iff.mp mem
  have := same old
  simp only [Claim.identity, Prod.mk.injEq] at this
  exact ⟨old, entry, this.1.symm, this.2.2.symm.trans held⟩

/-- A record that keeps its pin, in place of another. -/
theorem Yields.onVol {f : Volume → Volume} (h : Yields s t) (same : ∀ x, (f x).pinned = x.pinned) (w : Vol) :
    Yields s (t.onVol w f) := by
  refine h.trans ⟨fun v ⟨up, x, used, pin⟩ => ?_, fun c cl mem held => ⟨c, cl, mem, rfl, held⟩, fun _ mem => mem⟩
  by_cases e : w = v
  · subst e
    simp only [State.onVol_vols, Fin.getElem_fin, Vector.getElem_set_self] at used
    obtain ⟨y, old, rfl⟩ := Option.map_eq_some_iff.mp used
    exact ⟨up, y, old, by rwa [same] at pin⟩
  · have : w.val ≠ v.val := fun h => e (Fin.ext h)
    exact ⟨up, x, by simpa [Vector.getElem_set_ne _ _ this] using used, pin⟩

theorem Yields.freed {c : ClaimIx} {cl : Claim} (h : Yields s t) : Yields s (t.freed c cl) :=
  (h.setClaim (c := c) (x := none) (fun _ mem => nomatch mem)).onVol (f := Volume.endSession) (fun _ => rfl) cl.vol

theorem Yields.removeWaiters (h : Yields s t) (f : Waiter → Bool) (st : Status) : Yields s (t.removeWaiters f st) := by
  rw [State.removeWaiters_told]
  exact h.trans ⟨fun _ pin => pin, fun c cl mem held => ⟨c, cl, mem, rfl, held⟩, fun _ mem => List.mem_of_mem_filter mem⟩

/-! ### Grants and revocations -/

/-- A grant goes to a waiter of a volume that is not pinned, or PINEN is not asserted (R45). -/
theorem State.pinUnheld.grantTo (law : s.pinUnheld v) {c : ClaimIx} {w : Waiter}
    (eligible : s.eligible w = true) : (s.grantTo c w).pinUnheld v := by
  obtain ⟨x, used, -, -, unpinned⟩ := (State.eligible_iff s w).mp eligible
  intro ⟨up, y, used', pin⟩ d cl mem vol held
  change cl ∈ (s.claims.set c (some (newClaim s w.vol w.port w.tag)))[d] at mem
  by_cases e : c = d
  · subst e
    simp only [Fin.getElem_fin, Vector.getElem_set_self, Option.mem_def, Option.some.injEq] at mem
    subst mem
    have named : w.vol = v := vol
    subst named
    rw [show s.vols[w.vol] = some y from used'] at used
    cases used
    rcases unpinned with no | no
    · rw [no] at pin; cases pin
    · rw [show s.pinen = true from up] at no; cases no
  · have : c.val ≠ d.val := fun h => e (Fin.ext h)
    simp only [Fin.getElem_fin, Vector.getElem_set_ne _ _ this] at mem
    exact law ⟨up, y, used', pin⟩ d cl mem vol held

theorem State.pinUnheld.grantAll (law : s.pinUnheld v) : s.grantAll.pinUnheld v :=
  s.grantAll_keeps (P := fun t => t.pinUnheld v) law fun _ _ _ law _ found =>
    law.grantTo (List.find?_some found)

theorem State.pinUnwaited.grantAll (law : s.pinUnwaited v) : s.grantAll.pinUnwaited v := by
  obtain ⟨ws, cs, h, e, sub⟩ := s.grantAll_frame
  rw [e]
  exact fun pin w mem => law pin w (sub.subset mem)

theorem Yields.called {c : ClaimIx} {cl : Claim} {n : Notice} : Yields s (s.called c cl n) := .of_eq rfl rfl rfl rfl

/-- What becomes of a HELD claim that is revoked, before the grants (R55). -/
theorem Yields.revoking (c : ClaimIx) (cl : Claim) (n : Notice) : Yields s { s.called c cl n with claims := s.claims.set c (some { cl with
    state := .revoking, pending := cl.pending - (s.fifos[cl.holder].filter (Op.boundTo c)).length }) } :=
  Yields.called.setClaim fun x mem held => by
    cases mem
    cases held

theorem State.pinUnheld.revoke (law : s.pinUnheld v) (c : ClaimIx) (n : Notice) : (s.revoke c n).pinUnheld v := by
  cases entry : s.claims[c] with
  | none => simpa only [State.revoke, entry] using law
  | some cl =>
    rw [s.revoke_some c n entry]
    split
    · exact (Yields.revoking c cl n).pinUnheld law
    · exact State.pinUnheld.grantAll (Yields.called.freed.pinUnheld law)

theorem State.pinUnwaited.revoke (law : s.pinUnwaited v) (c : ClaimIx) (n : Notice) : (s.revoke c n).pinUnwaited v := by
  cases entry : s.claims[c] with
  | none => simpa only [State.revoke, entry] using law
  | some cl =>
    rw [s.revoke_some c n entry]
    split
    · exact (Yields.revoking c cl n).pinUnwaited law
    · exact State.pinUnwaited.grantAll (Yields.called.freed.pinUnwaited law)

theorem Move.pinned (m : Move s t) : (s.pinUnheld v → t.pinUnheld v) ∧ (s.pinUnwaited v → t.pinUnwaited v) := by
  have both : ∀ {u : State}, Yields s u → (s.pinUnheld v → u.pinUnheld v) ∧ (s.pinUnwaited v → u.pinUnwaited v) :=
    fun h => ⟨h.pinUnheld, h.pinUnwaited⟩
  cases m with
  | claimFields c f same => exact both ((Yields.refl s).onClaim same)
  | withdraw r p w waits =>
    exact both ⟨fun _ pin => pin, fun c cl mem held => ⟨c, cl, mem, rfl, held⟩, fun _ mem => List.mem_of_mem_erase mem⟩
  | revoke c n => exact ⟨fun law => law.revoke c n, fun law => law.revoke c n⟩
  | grants => exact ⟨fun law => law.grantAll, fun law => law.grantAll⟩
  | receive p wire n =>
    unfold State.receive
    split
    · exact ⟨id, id⟩
    · split <;> exact both (.of_eq rfl rfl rfl rfl)
  | _ => exact both (.of_eq rfl rfl rfl rfl)

theorem Move.pinLaw (m : Move s t) (law : s.pinLaw) : t.pinLaw := by
  rw [State.pinLaw_iff] at law ⊢
  exact fun v => ⟨m.pinned.1 (law v).1, m.pinned.2 (law v).2⟩

theorem Yields.pinLaw (h : Yields s t) (law : s.pinLaw) : t.pinLaw := by
  rw [State.pinLaw_iff] at law ⊢
  exact fun v => ⟨h.pinUnheld (law v).1, h.pinUnwaited (law v).2⟩

theorem Moves.pinLaw (ms : Moves s t) (law : s.pinLaw) : t.pinLaw := ms.keeps law fun _ _ law m => m.pinLaw law

theorem State.pinLaw.grantAll (law : s.pinLaw) : s.grantAll.pinLaw := (Move.grants s).pinLaw law

theorem State.pinLaw.lowerClaim (law : s.pinLaw) (c : ClaimIx) : (s.lowerClaim c).pinLaw := by
  cases entry : s.claims[c] with
  | none => rwa [s.lowerClaim_none entry]
  | some cl =>
    cases state : cl.state with
    | held =>
      rw [s.lowerClaim_held entry state]
      exact Yields.pinLaw (s := s) ((Yields.refl s).setClaim fun x mem held => ⟨cl, entry, by cases mem; rfl, state⟩) law
    | revoking =>
      rw [s.lowerClaim_revoking entry state]
      exact State.pinLaw.grantAll ((Yields.refl s).freed.pinLaw law)

theorem State.pinLaw.finish (law : s.pinLaw) (st : Status) (body : List Byte) : (s.finish st body).pinLaw := by
  cases busy : s.engine with
  | none => simpa only [State.finish, busy] using law
  | some e =>
    rw [s.finish_some busy]
    split
    · exact (Yields.of_eq (s := s) rfl rfl rfl rfl).pinLaw law
    · refine State.pinLaw.lowerClaim ?_ _
      exact (Yields.of_eq (s := s) rfl rfl rfl rfl).pinLaw law

/-- A revocation leaves the volume without a HELD claim, and PINEN lets no grant make one (R55, R139). -/
theorem State.revokeVolume_unheld (unique : s.uniqueLaw) (n : Notice) : (s.revokeVolume v n).pinUnheld v := by
  have only : ∀ {c : ClaimIx} {cl : Claim}, s.claims[c] = some cl → cl.vol = v → ∀ d : ClaimIx, ∀ x ∈ s.claims[d], x.vol = v → d = c :=
    fun {c cl} entry vol d x mem vol' => unique d c x mem cl entry (vol'.trans vol.symm)
  unfold State.revokeVolume
  split
  · rename_i unclaimed
    exact fun _ c cl mem vol => absurd vol ((State.claimOf_none s v).mp unclaimed c cl mem)
  · rename_i c claimed
    obtain ⟨cl, entry, vol⟩ := State.claimOf_some s v c claimed
    rw [entry]
    dsimp only
    split
    · rw [s.revoke_some c n entry]
      split
      · intro _ d x mem vol' held
        by_cases e : c = d
        · subst e
          simp only [Fin.getElem_fin, Vector.getElem_set_self, Option.mem_def, Option.some.injEq] at mem
          rw [← mem] at held
          cases held
        · have ne : c.val ≠ d.val := fun h => e (Fin.ext h)
          simp only [Fin.getElem_fin, Vector.getElem_set_ne _ _ ne] at mem
          exact e (only entry vol d x mem vol').symm
      · refine State.pinUnheld.grantAll fun _ d x mem vol' held => ?_
        change x ∈ (s.claims.set c none)[d] at mem
        by_cases e : c = d
        · subst e
          simp at mem
        · have ne : c.val ≠ d.val := fun h => e (Fin.ext h)
          simp only [Fin.getElem_fin, Vector.getElem_set_ne _ _ ne] at mem
          exact e (only entry vol d x mem vol').symm
    · rename_i revoking
      intro _ d x mem vol' held
      have same := only entry vol d x mem vol'
      subst same
      rw [show s.claims[d] = some x from mem] at entry
      cases entry
      exact revoking held

theorem State.revokeIfPinned_unheld (unique : s.uniqueLaw) : (s.revokeIfPinned v).pinUnheld v := by
  unfold State.revokeIfPinned
  split
  · rename_i unused
    exact fun ⟨_, x, used, _⟩ => by rw [unused] at used; cases used
  · rename_i x used
    split
    · exact State.revokeVolume_unheld unique .revoked
    · rename_i unpinned
      exact fun ⟨_, y, used', pin⟩ => by
        rw [used] at used'
        cases used'
        exact absurd pin unpinned

theorem Moves.uniqueLaw (ms : Moves s t) (unique : s.uniqueLaw) : t.uniqueLaw := ms.keeps unique fun _ _ unique m => m.uniqueLaw unique

theorem Moves.pinned (ms : Moves s t) : (s.pinUnheld v → t.pinUnheld v) ∧ (s.pinUnwaited v → t.pinUnwaited v) :=
  ms.keeps (P := fun t => (s.pinUnheld v → t.pinUnheld v) ∧ (s.pinUnwaited v → t.pinUnwaited v)) ⟨id, id⟩ fun _ _ h m =>
    ⟨fun law => m.pinned.1 (h.1 law), fun law => m.pinned.2 (h.2 law)⟩

/-- R141: after the claims of pinned volumes have been revoked one after another, no pinned volume has a HELD claim. -/
theorem State.foldl_revokeIfPinned (unique : s.uniqueLaw) (vs : List Vol) : ∀ v ∈ vs, (vs.foldl State.revokeIfPinned s).pinUnheld v := by
  induction vs generalizing s with
  | nil => exact fun _ mem => nomatch mem
  | cons w rest ih =>
    intro v mem
    have step := Moves.revokeIfPinned s w
    rcases List.mem_cons.mp mem with rfl | mem
    · exact (Moves.foldl Moves.revokeIfPinned rest _).pinned.1 (State.revokeIfPinned_unheld unique)
    · exact ih (step.uniqueLaw unique) v mem

theorem State.pinenRises_pinLaw (unique : s.uniqueLaw) : ((List.finRange 32).foldl State.revokeIfPinned s.pinenUp).pinLaw := by
  rw [State.pinLaw_iff]
  intro v
  have unwaited : s.pinenUp.pinUnwaited v := by
    simp only [State.pinenUp, State.removeWaiters_told]
    intro ⟨_, x, used, pin⟩ w mem vol
    subst vol
    have kept := List.of_mem_filter mem
    have pinned : State.waiterPinned { s with pinen := true } w = true := by
      unfold State.waiterPinned
      rw [show s.vols[w.vol] = some x from used]
      exact pin
    rw [pinned] at kept
    cases kept
  have unique' : s.pinenUp.uniqueLaw :=
    ((Shrinks.of_eq (s := s) (t := { s with pinen := true }) rfl rfl).removeWaiters _ _).uniqueLaw unique
  exact ⟨State.foldl_revokeIfPinned unique' _ v (List.mem_finRange v), (Moves.pinenRises _).pinned.2 unwaited⟩

/-! ### Journal entries -/

/-- A record under which no volume becomes pinned (R138). -/
theorem applied_pinned {r : JRecord} {d : Directory} {x : Volume} (other : ∀ b, r ≠ .pin b) (used : (applied r d)[v] = some x)
    (pin : x.pinned = true) : ∃ y ∈ d[v], y.pinned = true := by
  rcases applied_get r d v with same | ⟨-, effect⟩
  · exact ⟨x, same ▸ used, pin⟩
  · rw [used] at effect
    generalize before : d[v] = z at effect
    cases effect with
    | create | unpin => cases pin
    | pin b => exact absurd rfl (other b)
    | access b rd wr y => exact ⟨y, rfl, pin⟩
    | stage b c sl y => exact ⟨y, rfl, by cases sl <;> exact pin⟩
    | commit b c sl gen len crc y =>
      refine ⟨y, rfl, ?_⟩
      simp only [Volume.commit] at pin
      cases sl <;> split at pin <;> exact pin
    | rollback b y => exact ⟨y, rfl, pin⟩

/-- Only the volume that a PIN names becomes pinned (R138). -/
theorem applied_pin {b : Byte} {d : Directory} {x : Volume} (other : volIndex b ≠ some v) (used : (applied (.pin b) d)[v] = some x) :
    d[v] = some x := by
  rcases applied_get (.pin b) d v with same | ⟨named, -⟩
  · exact same ▸ used
  · exact absurd named other

theorem Yields.entry (en : JEntry) (j : Journal)
    (pinned : ∀ v : Vol, ∀ x ∈ (applied en.content s.vols)[v], x.pinned = true → ∃ y ∈ s.vols[v], y.pinned = true) :
    Yields s (s.journalled en j) := by
  obtain ⟨slot, checked⟩ := State.compactionCheck_frame { s with
    store := s.store.program (positionBase j.sector j.append) (entryBytes en)
    journal := some { j with append := j.append + 1, seq := j.seq + 1 }
    vols := applied en.content s.vols }
  rw [State.journalled, checked]
  exact ⟨fun v ⟨up, x, used, pin⟩ => ⟨up, pinned v x used pin⟩, fun c cl mem held => ⟨c, cl, mem, rfl, held⟩, fun _ mem => mem⟩

theorem State.pinLaw.afterAccess (law : s.pinLaw) (v : Vol) : (afterAccess v s).pinLaw := by
  unfold Machine.afterAccess
  split
  · exact law
  · have removed := fun f st => ((Yields.refl s).removeWaiters f st).pinLaw law
    dsimp only
    split
    · exact removed _ _
    · split
      · exact removed _ _
      · rename_i c _ _ cl entry
        split
        · rename_i held
          exact (Move.revoke _ c .revoked cl entry held.1).pinLaw (removed _ _)
        · exact removed _ _

/-- What completes with an entry other than a PIN makes no claim HELD on a pinned volume. -/
theorem State.pinLaw.entryEffect (law : s.pinLaw) {k : Kind} (other : k ≠ .pin) (e : InFlight) : (entryEffect k e s).pinLaw := by
  have forVol : ∀ f : Vol → State → State, (∀ v, (f v s).pinLaw) → (forVolume f e s).pinLaw := fun f h => by
    unfold forVolume
    split
    · exact law
    · exact h _
  cases k with
  | pin => exact absurd rfl other
  | deleteVolume => exact forVol _ fun v => ((Yields.refl s).removeWaiters _ _).pinLaw law
  | setAccess => exact forVol _ law.afterAccess
  | beginStage =>
    change (Machine.afterStage e s).pinLaw
    unfold Machine.afterStage
    split
    · split
      · exact law
      · exact ((Yields.refl s).onClaim fun _ => by rfl).pinLaw law
    · exact law
  | commit =>
    change (Machine.afterCommit e s).pinLaw
    unfold Machine.afterCommit
    split
    · exact law
    · exact ((Yields.refl s).onClaim fun _ => by rfl).pinLaw law
  | _ => exact law

/-- R139: a volume that has just been pinned loses its waiters and its HELD claim, all others being free already. -/
theorem pinLaw_afterPin (unique : s.uniqueLaw) (others : ∀ w, w ≠ v → s.pinUnheld w ∧ s.pinUnwaited w) : (afterPin v s).pinLaw := by
  rw [State.pinLaw_iff]
  intro w
  unfold Machine.afterPin
  split
  · have moves := Moves.revokeVolume (s.removeWaiters (fun w => w.vol == v) .pinned) v .revoked
    have yields := (Yields.refl s).removeWaiters (fun w => w.vol == v) .pinned
    by_cases e : w = v
    · subst e
      refine ⟨State.revokeVolume_unheld (((Shrinks.refl s).removeWaiters _ _).uniqueLaw unique) .revoked, moves.pinned.2 ?_⟩
      rw [State.removeWaiters_told]
      intro _ u mem vol
      have kept := List.of_mem_filter mem
      simp [vol] at kept
    · exact ⟨moves.pinned.1 (yields.pinUnheld (others w e).1), moves.pinned.2 (yields.pinUnwaited (others w e).2)⟩
  · rename_i down
    exact ⟨fun ⟨up, _⟩ => absurd up down, fun ⟨up, _⟩ => absurd up down⟩

/-- The record of a PIN is a PIN entry. -/
theorem pin_of_recordFits {o : Op} {r : JRecord} (fits : recordFits o r = true) (kind : o.kind = .pin) : ∃ b, r = .pin b := by
  cases r with
  | pin b => exact ⟨b, rfl⟩
  | _ => simp [recordFits, kind] at fits

theorem State.pinLaw.entry (law : s.pinLaw) (unique : s.uniqueLaw) (records : s.recordLaw) {k : Kind} {e : InFlight} {en : JEntry}
    {j : Journal} (under : s.recordUnder k = some (e, en, j)) : (Machine.entryEffect k e (s.journalled en j)).pinLaw := by
  obtain ⟨busy, kind, -, own, entry, -⟩ := State.recordUnder_some under
  have fits := records e busy own en entry
  by_cases pin : ∃ b, en.content = .pin b
  · obtain ⟨b, content⟩ := pin
    rw [content] at fits
    simp only [recordFits, kind, Bool.and_eq_true, beq_iff_eq] at fits
    obtain ⟨rfl, named⟩ := fits
    obtain ⟨v, vol, rfl⟩ := Option.map_eq_some_iff.mp named
    change (forVolume Machine.afterPin e (s.journalled en j)).pinLaw
    unfold forVolume
    rw [vol]
    dsimp only
    obtain ⟨slot, checked⟩ := State.compactionCheck_frame { s with
      store := s.store.program (positionBase j.sector j.append) (entryBytes en)
      journal := some { j with append := j.append + 1, seq := j.seq + 1 }
      vols := applied en.content s.vols }
    rw [State.journalled, checked]
    refine pinLaw_afterPin ((Shrinks.of_eq (s := s) rfl rfl).uniqueLaw unique) fun w ne => ?_
    have before : ∀ x ∈ (applied en.content s.vols)[w], x ∈ s.vols[w] := fun x used => by
      rw [content] at used
      refine applied_pin ?_ used
      rw [volIndex_volByte]
      exact fun same => ne (Option.some.inj same).symm
    rw [State.pinLaw_iff] at law
    exact ⟨fun ⟨up, x, used, pin⟩ => (law w).1 ⟨up, x, before x used, pin⟩,
      fun ⟨up, x, used, pin⟩ => (law w).2 ⟨up, x, before x used, pin⟩⟩
  · rw [not_exists] at pin
    have entered := (Yields.entry en j fun v x used => applied_pinned pin used).pinLaw law
    by_cases other : k = .pin
    · subst other
      obtain ⟨b, content⟩ := pin_of_recordFits fits kind
      exact absurd content (pin b)
    · exact entered.entryEffect other e

theorem Ask.pinLaw (a : Ask s t) (law : s.pinLaw) : t.pinLaw := by
  have refused : ∀ {v x}, s.pinRefuses x = false → s.vols[v] = some x → ¬s.pinnedNow v := fun {v x} no used ⟨up, y, used', pin⟩ => by
    rw [show s.vols[v] = some y from used'] at used
    cases used
    simp [State.pinRefuses, up, pin] at no
  cases a with
  | answer => exact (Yields.of_eq (s := s) rfl rfl rfl rfl).pinLaw law
  | claimNow r p v c x room used stays unpinned =>
    rw [State.pinLaw_iff] at law ⊢
    refine fun w => ⟨fun pin d cl mem vol held => ?_, fun pin => (law w).2 pin⟩
    change cl ∈ (s.claims.set c (some (newClaim s v p r.tag)))[d] at mem
    by_cases e : c = d
    · subst e
      simp only [Fin.getElem_fin, Vector.getElem_set_self, Option.mem_def, Option.some.injEq] at mem
      subst mem
      have named : v = w := vol
      subst named
      exact refused unpinned used pin
    · have : c.val ≠ d.val := fun h => e (Fin.ext h)
      simp only [Fin.getElem_fin, Vector.getElem_set_ne _ _ this] at mem
      exact (law w).1 pin d cl mem vol held
  | claimWaits r p v x room used unpinned =>
    rw [State.pinLaw_iff] at law ⊢
    refine fun w => ⟨fun pin => (law w).1 pin, fun pin u mem vol => ?_⟩
    rcases List.mem_append.mp mem with mem | last
    · exact (law w).2 pin u mem vol
    · rw [List.mem_singleton] at last
      subst last
      have named : v = w := vol
      subst named
      exact refused unpinned used pin

theorem Work.pinLaw (w : Work s t) (law : s.pinLaw) : t.pinLaw := by
  cases w with
  | runs u t o idle begun picked starts =>
    obtain ⟨_, _, _, _, rfl⟩ := s.takePick_frame o u picked
    cases startOp_runs starts with
    | delete v x j =>
      refine Yields.pinLaw (s := s) (.onVol ?_ ?_ v) law
      · exact .of_eq rfl rfl rfl rfl
      · exact fun _ => by rfl
    | _ => exact Yields.pinLaw (s := s) (.of_eq rfl rfl rfl rfl) law
  | ends u v o st body idle begun picked starts =>
    refine State.pinLaw.finish ?_ st body
    obtain ⟨_, _, _, _, rfl⟩ := s.takePick_frame o u picked
    rcases startOp_ends starts with rfl | rfl <;> exact Yields.pinLaw (s := s) (.of_eq rfl rfl rfl rfl) law

/-- With no claim and no waiter nothing names a pinned volume. -/
theorem State.pinLaw_of_empty (claims : t.claims = Vector.replicate 4 none) (waits : t.waits = []) : t.pinLaw := by
  rw [State.pinLaw_iff]
  refine fun v => ⟨fun _ c cl mem => ?_, fun _ w mem => ?_⟩
  · simp [claims] at mem
  · simp [waits] at mem

theorem clearDeleting_yields (e : InFlight) : Yields s (clearDeleting e s) := by
  unfold clearDeleting forVolume
  split
  · split
    · exact .refl s
    · exact (Yields.refl s).onVol (f := fun y => { y with deleting := false }) (fun _ => rfl) _
  · exact .refl s

theorem Event.pinLaw (h : Event s b t) (law : s.pinLaw) (unique : s.uniqueLaw) (records : s.recordLaw) : t.pinLaw := by
  have same : ∀ u : State, u.pinen = s.pinen → u.vols = s.vols → u.claims = s.claims → u.waits = s.waits → u.pinLaw :=
    fun u p d c w => (Yields.of_eq p d c w).pinLaw law
  cases h with
  | finished st body => exact law.finish st body
  | beginLost | ownLost | compactEraseFails | formatEraseFails | switched | rowWritten =>
    refine State.pinLaw.finish ?_ _ _
    exact same _ rfl rfl rfl rfl
  | eraseEnds e n i m store | programEnds e n pg i m store =>
    refine State.pinLaw.finish ?_ _ _
    unfold State.setMapEntry
    split
    · exact same _ rfl rfl rfl rfl
    · exact ((Yields.of_eq (s := s) (t := { s with store := store }) rfl rfl rfl rfl).onClaim fun _ => by rfl).pinLaw law
  | verified e v x sl len crc u busy kind phase staged length begins =>
    obtain ⟨j, -, -, rfl⟩ := beginRecord_runs begins
    exact same _ rfl rfl rfl rfl
  | entry k e en j st body under => exact (law.entry unique records under).finish st body
  | lost e js j =>
    refine State.pinLaw.finish ((clearDeleting_yields e).pinLaw ?_) _ _
    exact same _ rfl rfl rfl rfl
  | formatErased e n =>
    unfold Machine.formatErased
    dsimp only
    split <;> exact same _ rfl rfl rfl rfl
  | pinenRises => exact State.pinenRises_pinLaw unique
  | pinenFalls => exact fun up => nomatch up
  | portCleared p =>
    refine Yields.pinLaw (s := s) ⟨fun v pin => ?_, fun c cl mem held => ?_, fun w mem => ?_⟩ law
    · obtain ⟨cs, e⟩ := s.portCleared_frame p
      rw [e] at pin
      exact pin
    · obtain ⟨g, e⟩ := s.portCleared_claims p c
      rw [e] at mem
      obtain ⟨x, old, rfl⟩ := Option.map_eq_some_iff.mp mem
      exact ⟨c, x, old, rfl, held⟩
    · obtain ⟨cs, e⟩ := s.portCleared_frame p
      rw [e] at mem
      exact List.mem_of_mem_filter mem
  | resetRises | powerFalls | unformatted => exact State.pinLaw_of_empty rfl rfl
  | replayed r =>
    obtain ⟨slot, checked⟩ := State.compactionCheck_frame { s.deriveRow.emptyClaims with
      vols := r.dir, journal := some r.journal, skipped := r.skipped, mode := .normal }
    rw [checked]
    exact State.pinLaw_of_empty rfl rfl
  | _ => exact same _ rfl rfl rfl rfl

end

/-- Settles O57: HELD claims and waits are made on volumes that are not pinned, and a pin or PINEN ends those there are. -/
theorem pinnedVolumesStayFree : Obligations.PinnedVolumesStayFree := fun _ _ _ _ records unique law next =>
  exec_keeps next (State.pinLaw_of_empty rfl rfl) fun reached => reached.keeps law (fun _ _ e => e.pinLaw law unique records) (fun _ _ law m => m.pinLaw law)
    (fun _ _ law a => a.pinLaw law)
    (fun u _ law q => by obtain ⟨_, rfl⟩ := q.frame; exact (Yields.of_eq (s := u) rfl rfl rfl rfl).pinLaw law)
    (fun _ _ law w => w.pinLaw law)

end Sys2Proof.Machine
end

section
/-! What the steps of a command do to the directory, the claims and the views beside journal entries: sessions end, claims and views
are made on volumes in use, and everything else goes or stays (R12, R22, R38, R45). -/

namespace Sys2Proof.Machine

/-! ### Records beside one another -/

theorem SlotRec.follows_refl (r : SlotRec) : r.follows r := .inl rfl

theorem SlotRec.follows_endSession (r : SlotRec) : r.endSession.follows r := by
  unfold SlotRec.endSession
  split
  · rename_i staging
    exact .inr ⟨staging, rfl⟩
  · exact .inl rfl

theorem SlotRec.follows_trans {p q r : SlotRec} (h : r.follows q) (h' : q.follows p) : r.follows p := by
  rcases h with rfl | ⟨staging, rfl⟩
  · exact h'
  · rcases h' with rfl | ⟨-, rfl⟩
    · exact .inr ⟨staging, rfl⟩
    · cases staging

theorem Volume.follows_refl (x : Volume) : x.follows x := ⟨.inl rfl, .inl rfl, rfl⟩

theorem Volume.follows_endSession (x : Volume) : x.endSession.follows x :=
  ⟨x.slotA.follows_endSession, x.slotB.follows_endSession, rfl⟩

theorem Volume.follows_trans {x y z : Volume} (h : x.follows y) (h' : y.follows z) : x.follows z := by
  obtain ⟨a, b, fields⟩ := h
  obtain ⟨a', b', fields'⟩ := h'
  refine ⟨SlotRec.follows_trans a a', SlotRec.follows_trans b b', ?_⟩
  rw [← fields'] at *
  rw [← fields]

theorem followsJournal.refl (d : Directory) : followsJournal d d := fun v => ⟨rfl, fun x mem y mem' => by
  rw [Option.mem_def] at mem mem'
  rw [mem] at mem'
  cases mem'
  exact x.follows_refl⟩

theorem followsJournal.trans {d e f : Directory} (h : followsJournal d e) (h' : followsJournal e f) : followsJournal d f := fun v => by
  obtain ⟨some, each⟩ := h v
  obtain ⟨some', each'⟩ := h' v
  refine ⟨some.trans some', fun x mem z mem' => ?_⟩
  obtain ⟨y, used⟩ := Option.isSome_iff_exists.mp (some'.trans (Option.isSome_iff_exists.mpr ⟨z, mem'⟩))
  exact Volume.follows_trans (each x mem y used) (each' y used z mem')

/-- A directory whose records have been changed one for one. -/
theorem followsJournal.of_map {d e : Directory} (h : ∀ v : Vol, ∃ f : Volume → Volume, d[v] = (e[v]).map f ∧ ∀ x, (f x).follows x) :
    followsJournal d e := fun v => by
  obtain ⟨f, each, follows⟩ := h v
  refine ⟨by rw [each, Option.isSome_map], fun x mem y mem' => ?_⟩
  rw [each, mem', Option.map_some, Option.mem_def] at mem
  cases mem
  exact follows y

/-! ### Ended sessions -/

/-- Each record is as before, or its staging session has ended (R12). -/
def Ended (d e : Directory) : Prop := ∀ v : Vol, e[v] = d[v] ∨ e[v] = (d[v]).map Volume.endSession

theorem SlotRec.endSession_twice (r : SlotRec) : r.endSession.endSession = r.endSession := by
  cases r with
  | mk state image => cases state <;> rfl

theorem Volume.endSession_twice (x : Volume) : x.endSession.endSession = x.endSession := by
  unfold Volume.endSession
  simp only [SlotRec.endSession_twice]

theorem Ended.refl (d : Directory) : Ended d d := fun _ => .inl rfl

theorem Ended.trans {d e f : Directory} (h : Ended d e) (h' : Ended e f) : Ended d f := fun v => by
  rcases h' v with same' | ended'
  · rw [same']
    exact h v
  · rcases h v with same | ended
    · exact .inr (by rw [ended', same])
    · refine .inr ?_
      rw [ended', ended, Option.map_map]
      exact congrArg (fun f => Option.map f d[v]) (funext Volume.endSession_twice)

theorem Ended.before {d e : Directory} (h : Ended d e) {v : Vol} {y : Volume} (used : e[v] = some y) :
    ∃ x, d[v] = some x ∧ (y = x ∨ y = x.endSession) := by
  rcases h v with same | ended
  · exact ⟨y, same ▸ used, .inl rfl⟩
  · rw [ended] at used
    obtain ⟨x, before, rfl⟩ := Option.map_eq_some_iff.mp used
    exact ⟨x, before, .inr rfl⟩

theorem Ended.used {d e : Directory} (h : Ended d e) {v : Vol} {x : Volume} (used : d[v] = some x) :
    e[v] = some x ∨ e[v] = some x.endSession := by
  have := h v
  rwa [used] at this

theorem Ended.follows {d e : Directory} (h : Ended d e) : followsJournal e d := followsJournal.of_map fun v => by
  rcases h v with same | ended
  · exact ⟨id, by rw [same, Option.map_id_apply], Volume.follows_refl⟩
  · exact ⟨Volume.endSession, ended, Volume.follows_endSession⟩

@[simp] theorem Volume.endSession_slot (x : Volume) (sl : Slot) : x.endSession.slot sl = (x.slot sl).endSession := by
  cases sl <;> rfl

@[simp] theorem Volume.endSession_deleting (x : Volume) : x.endSession.deleting = x.deleting := rfl

theorem SlotRec.endSession_of_ne {r : SlotRec} (h : r.state ≠ .staging) : r.endSession = r := if_neg h

theorem SlotRec.endSession_state_eq {r : SlotRec} {st : SlotState} (ne : st ≠ .stale) (h : r.endSession.state = st) : r.state = st := by
  unfold SlotRec.endSession at h
  split at h
  · exact absurd h.symm ne
  · exact h

theorem SlotRec.endSession_active (r : SlotRec) : r.endSession.state = .active ↔ r.state = .active := by
  unfold SlotRec.endSession
  split
  · rename_i staging
    rw [staging]
    decide
  · rfl

@[simp] theorem Volume.endSession_slotIn_active (x : Volume) : x.endSession.slotIn .active = x.slotIn .active := by
  unfold Volume.slotIn
  have a := x.slotA.endSession_active
  have b := x.slotB.endSession_active
  simp only [Volume.endSession, a, b]

theorem Volume.slotIn_some {x : Volume} {st : SlotState} {sl : Slot} (h : x.slotIn st = some sl) : (x.slot sl).state = st := by
  unfold Volume.slotIn at h
  split at h
  · cases h
    assumption
  · split at h
    · cases h
      assumption
    · cases h

/-! ### The relation -/

/-- What a view shows is the ACTIVE slot of a volume that is not under deletion (R32). -/
def Volume.shows (x : Volume) (w : View) : Prop :=
  x.deleting = false ∧ x.slotIn .active = some w.slot ∧ (x.slot w.slot).gen = w.gen ∧ (x.slot w.slot).len = w.len

/-- Sessions end; what claims and views are new name volumes in use that are not under deletion. -/
structure Tends (s t : State) : Prop where
  vols : Ended s.vols t.vols
  claims : ∀ c : ClaimIx, ∀ cl ∈ t.claims[c], (∃ d : ClaimIx, ∃ x ∈ s.claims[d], x.vol = cl.vol) ∨ ∃ x ∈ s.vols[cl.vol], x.deleting = false
  views : ∀ p : Port, ∀ h : Handle, ∀ w ∈ t.views[p][h], w ∈ s.views[p][h] ∨ ∃ x ∈ s.vols[w.vol], x.shows w

section
variable {s t : State} {b : Bool}

theorem Tends.of_eq (vols : t.vols = s.vols) (claims : t.claims = s.claims) (views : t.views = s.views) : Tends s t where
  vols := by rw [vols]; exact .refl _
  claims c cl mem := .inl ⟨c, cl, by rwa [claims] at mem, rfl⟩
  views p h w mem := .inl (by rwa [views] at mem)

theorem Tends.refl (s : State) : Tends s s := .of_eq rfl rfl rfl

theorem Tends.trans {u : State} (h : Tends s t) (h' : Tends t u) : Tends s u where
  vols := h.vols.trans h'.vols
  claims c cl mem := by
    rcases h'.claims c cl mem with ⟨d, x, mem', vol⟩ | ⟨x, used, stays⟩
    · simpa only [vol] using h.claims d x mem'
    · obtain ⟨y, before, same⟩ := h.vols.before used
      refine .inr ⟨y, before, ?_⟩
      rcases same with rfl | rfl <;> exact stays
  views p hd w mem := by
    rcases h'.views p hd w mem with mem' | ⟨x, used, shows⟩
    · exact h.views p hd w mem'
    · obtain ⟨y, before, same⟩ := h.vols.before used
      refine .inr ⟨y, before, ?_⟩
      rcases same with rfl | rfl
      · exact shows
      · obtain ⟨stays, active, gen, len⟩ := shows
        rw [Volume.endSession_slotIn_active] at active
        have slot : y.endSession.slot w.slot = y.slot w.slot := by
          rw [Volume.endSession_slot]
          exact SlotRec.endSession_of_ne (by rw [Volume.slotIn_some active]; decide)
        rw [slot] at gen len
        exact ⟨stays, active, gen, len⟩

/-- One entry of the Claim Table replaced by none, or by a claim on a volume that was claimed or is in use and not under deletion. -/
theorem Tends.setClaim {c : ClaimIx} {x : Option Claim} (h : Tends s t)
    (fits : ∀ cl ∈ x, (∃ old ∈ t.claims[c], old.vol = cl.vol) ∨ ∃ y ∈ t.vols[cl.vol], y.deleting = false) :
    Tends s (t.setClaim c x) := by
  refine h.trans ⟨.refl _, fun d cl mem => ?_, fun _ _ _ mem => .inl mem⟩
  by_cases e : c = d
  · subst e
    rcases fits cl (by simpa using mem) with ⟨old, entry, vol⟩ | used
    · exact .inl ⟨c, old, entry, vol⟩
    · exact .inr used
  · have : c.val ≠ d.val := fun h => e (Fin.ext h)
    exact .inl ⟨d, cl, by simpa [Vector.getElem_set_ne _ _ this] using mem, rfl⟩

theorem Tends.onClaim {c : ClaimIx} {f : Claim → Claim} (h : Tends s t) (same : ∀ cl, (f cl).vol = cl.vol) : Tends s (t.onClaim c f) :=
  h.setClaim fun cl mem => by
    obtain ⟨old, entry, rfl⟩ := Option.map_eq_some_iff.mp mem
    exact .inl ⟨old, entry, (same old).symm⟩

theorem State.onVol_get (s : State) (v w : Vol) (f : Volume → Volume) :
    (s.onVol v f).vols[w] = if v = w then (s.vols[w]).map f else s.vols[w] := by
  rw [State.onVol, State.setVol, directory_set_get]
  split
  · rename_i e
    rw [e]
  · rfl

theorem Tends.endSession (h : Tends s t) (v : Vol) : Tends s (t.onVol v Volume.endSession) := by
  refine h.trans ⟨fun w => ?_, fun c cl mem => .inl ⟨c, cl, mem, rfl⟩, fun _ _ _ mem => .inl mem⟩
  rw [State.onVol_get]
  split
  · exact .inr rfl
  · exact .inl rfl

theorem Tends.setView {p : Port} {hd : Handle} {x : Option View} (h : Tends s t) (fits : ∀ w ∈ x, ∃ y ∈ t.vols[w.vol], y.shows w) :
    Tends s (t.setView p hd x) := by
  refine h.trans ⟨.refl _, fun c cl mem => .inl ⟨c, cl, mem, rfl⟩, fun q k w mem => ?_⟩
  change w ∈ (t.views.set p (t.views[p].set hd x))[q][k] at mem
  by_cases e : p = q
  · subst e
    simp only [Fin.getElem_fin, Vector.getElem_set_self] at mem
    by_cases e' : hd = k
    · subst e'
      exact .inr (fits w (by simpa using mem))
    · have : hd.val ≠ k.val := fun h => e' (Fin.ext h)
      exact .inl (by simpa [Vector.getElem_set_ne _ _ this] using mem)
  · have : p.val ≠ q.val := fun h => e (Fin.ext h)
    exact .inl (by simpa [Vector.getElem_set_ne _ _ this] using mem)

theorem Tends.freed (h : Tends s t) (c : ClaimIx) (cl : Claim) : Tends s (t.freed c cl) :=
  (h.setClaim (c := c) (x := none) fun _ mem => nomatch mem).endSession cl.vol

theorem Tends.grantAll (h : Tends s t) : Tends s t.grantAll :=
  t.grantAll_keeps (P := Tends s) h fun u c w h _ found => by
    obtain ⟨x, used, stays, -⟩ := (State.eligible_iff u w).mp (List.find?_some found)
    have waited : Tends s { u with waits := u.waits.erase w } := h.trans (.of_eq rfl rfl rfl)
    have claimed := waited.setClaim (c := c) (x := some (newClaim u w.vol w.port w.tag)) fun cl mem => by
      cases mem
      exact .inr ⟨x, used, stays⟩
    exact claimed.trans (.of_eq rfl rfl rfl)

theorem Tends.removeWaiters (h : Tends s t) (f : Waiter → Bool) (st : Status) : Tends s (t.removeWaiters f st) := by
  rw [State.removeWaiters_told]
  exact h.trans (.of_eq rfl rfl rfl)

theorem Tends.revoke (h : Tends s t) (c : ClaimIx) (n : Notice) : Tends s (t.revoke c n) := by
  cases entry : t.claims[c] with
  | none => simpa only [State.revoke, entry] using h
  | some cl =>
    rw [t.revoke_some c n entry]
    have called : Tends s (t.called c cl n) := h.trans (.of_eq rfl rfl rfl)
    split
    · exact called.setClaim fun x mem => by
        cases mem
        exact .inl ⟨cl, entry, rfl⟩
    · exact (called.freed c cl).grantAll

theorem Move.tends (m : Move s t) : Tends s t := by
  cases m with
  | claimFields c f same =>
    refine (Tends.refl s).onClaim fun cl => ?_
    have := same cl
    simp only [Claim.identity, Prod.mk.injEq] at this
    exact this.1
  | openView p h v x sl used stays active =>
    exact (Tends.refl s).setView fun w mem => by
      cases mem
      exact ⟨x, used, stays, active, rfl, rfl⟩
  | closeView => exact (Tends.refl s).setView fun _ mem => nomatch mem
  | revoke c n => exact (Tends.refl s).revoke c n
  | grants => exact (Tends.refl s).grantAll
  | receive p wire n =>
    unfold State.receive
    split
    · exact .refl s
    · split <;> exact .of_eq rfl rfl rfl
  | _ => exact .of_eq rfl rfl rfl

theorem Moves.tends (ms : Moves s t) : Tends s t := ms.keeps (P := Tends s) (.refl s) fun _ _ h m => h.trans m.tends

theorem Ask.tends (a : Ask s t) : Tends s t := by
  cases a with
  | answer => exact .of_eq rfl rfl rfl
  | claimNow r p v c x room used stays =>
    have claimed := (Tends.refl s).setClaim (c := c) (x := some (newClaim s v p r.tag)) fun cl mem => by
      cases mem
      exact .inr ⟨x, used, stays⟩
    exact claimed.trans (.of_eq rfl rfl rfl)
  | claimWaits => exact .of_eq rfl rfl rfl

theorem Tends.lowerClaim (h : Tends s t) (c : ClaimIx) : Tends s (t.lowerClaim c) := by
  cases entry : t.claims[c] with
  | none => rwa [t.lowerClaim_none entry]
  | some cl =>
    cases state : cl.state with
    | held =>
      rw [t.lowerClaim_held entry state]
      exact h.setClaim fun x mem => by
        cases mem
        exact .inl ⟨cl, entry, rfl⟩
    | revoking =>
      rw [t.lowerClaim_revoking entry state]
      exact (h.freed c cl).grantAll

theorem Tends.finish (h : Tends s t) (st : Status) (body : List Byte) : Tends s (t.finish st body) := by
  cases busy : t.engine with
  | none => simpa only [State.finish, busy] using h
  | some e =>
    rw [t.finish_some busy]
    split
    · exact h.trans (.of_eq rfl rfl rfl)
    · rename_i c _
      have answered : Tends s { t with hpi := t.completionQueues e st body, engine := none } := h.trans (.of_eq rfl rfl rfl)
      exact answered.lowerClaim c

theorem Tends.setMapEntry (h : Tends s t) (c : Option ClaimIx) (i : Nat) (m : MapEntry) : Tends s (t.setMapEntry c i m) := by
  unfold State.setMapEntry
  split
  · exact h
  · exact h.onClaim fun _ => rfl

theorem Tends.portCleared (p : Port) : Tends s (s.portCleared p) := by
  obtain ⟨cs, e⟩ := s.portCleared_frame p
  refine ⟨?_, fun c cl mem => ?_, fun q h w mem => ?_⟩
  · rw [e]
    exact .refl _
  · obtain ⟨g, eq⟩ := s.portCleared_claims p c
    rw [eq] at mem
    obtain ⟨x, old, rfl⟩ := Option.map_eq_some_iff.mp mem
    exact .inl ⟨c, x, old, rfl⟩
  · rw [e] at mem
    change w ∈ (s.views.set p (Vector.replicate 4 none))[q][h] at mem
    by_cases e : p = q
    · subst e
      simp at mem
    · have : p.val ≠ q.val := fun h => e (Fin.ext h)
      exact .inl (by simpa [Vector.getElem_set_ne _ _ this] using mem)

theorem Tends.entryEffect (h : Tends s t) (k : Kind) (e : InFlight) : Tends s (entryEffect k e t) := by
  have forVol : ∀ f : Vol → State → State, (∀ v, Tends s (f v t)) → Tends s (forVolume f e t) := fun f each => by
    unfold forVolume
    split
    · exact h
    · exact each _
  cases k with
  | deleteVolume => exact forVol _ fun v => h.removeWaiters _ _
  | setAccess =>
    refine forVol _ fun v => ?_
    unfold Machine.afterAccess
    split
    · exact h
    · dsimp only
      split
      · exact h.removeWaiters _ _
      · split
        · exact h.removeWaiters _ _
        · split
          · exact (h.removeWaiters _ _).revoke _ _
          · exact h.removeWaiters _ _
  | pin =>
    refine forVol _ fun v => ?_
    unfold Machine.afterPin
    split
    · exact (h.removeWaiters _ _).trans (Moves.revokeVolume _ v .revoked).tends
    · exact h
  | beginStage =>
    change Tends s (Machine.afterStage e t)
    unfold Machine.afterStage
    split
    · split
      · exact h
      · exact h.onClaim fun _ => by rfl
    · exact h
  | commit =>
    change Tends s (Machine.afterCommit e t)
    unfold Machine.afterCommit
    split
    · exact h
    · exact h.onClaim fun _ => by rfl
  | _ => exact h

/-! ### The directory under each event -/

theorem State.onVol_follows {v : Vol} {f : Volume → Volume} (h : ∀ x, (f x).follows x) : followsJournal (s.onVol v f).vols s.vols :=
  followsJournal.of_map fun w => by
    rw [State.onVol_get]
    split
    · exact ⟨f, rfl, h⟩
    · exact ⟨id, by rw [Option.map_id_apply], Volume.follows_refl⟩

theorem clearDeleting_follows (e : InFlight) : followsJournal (clearDeleting e s).vols s.vols := by
  unfold clearDeleting forVolume
  split
  · split
    · exact .refl _
    · exact State.onVol_follows (f := fun x => { x with deleting := false }) fun x => ⟨.inl rfl, .inl rfl, rfl⟩
  · exact .refl _

theorem Work.follows (w : Work s t) : followsJournal t.vols s.vols := by
  cases w with
  | runs u t o idle begun picked starts =>
    obtain ⟨_, _, _, _, rfl⟩ := s.takePick_frame o u picked
    cases startOp_runs starts with
    | delete v x j => exact State.onVol_follows (f := fun x => { x with deleting := true }) fun x => ⟨.inl rfl, .inl rfl, rfl⟩
    | _ => exact .refl _
  | ends u v o st body idle begun picked starts =>
    obtain ⟨_, _, _, _, rfl⟩ := s.takePick_frame o u picked
    rcases startOp_ends starts with rfl | rfl <;> exact ((Tends.refl _).finish st body).vols.follows

theorem State.journalled_vols (en : JEntry) (j : Journal) : (s.journalled en j).vols = applied en.content s.vols := by
  obtain ⟨slot, checked⟩ := State.compactionCheck_frame { s with
    store := s.store.program (positionBase j.sector j.append) (entryBytes en)
    journal := some { j with append := j.append + 1, seq := j.seq + 1 }
    vols := applied en.content s.vols }
  rw [State.journalled, checked]

/-- What an event makes of the directory: sessions and flags alone, or the effect of a record first, or all of it cleared or
replayed. -/
theorem Event.follows (h : Event s b t) : followsJournal t.vols s.vols
    ∨ (∃ k e en j, s.recordUnder k = some (e, en, j) ∧ followsJournal t.vols (applied en.content s.vols))
    ∨ t.vols = Vector.replicate 32 none ∨ (s.mode = .starting ∧ ∃ r, replay s.store = some r ∧ t.vols = r.dir) := by
  have fin : ∀ (u : State) st body, followsJournal u.vols s.vols → followsJournal (u.finish st body).vols s.vols :=
    fun u st body h => (((Tends.refl u).finish st body).vols.follows).trans h
  have same := followsJournal.refl s.vols
  cases h with
  | finished | beginLost | ownLost | compactEraseFails | formatEraseFails | switched | rowWritten => exact .inl (fin _ _ _ same)
  | eraseEnds e n i m store | programEnds e n pg i m store =>
    refine .inl (fin _ _ _ ?_)
    obtain ⟨cs, eq⟩ := State.setMapEntry_frame { s with store := store } e.op.claim i m
    rw [eq]
    exact same
  | verified e v x sl len crc u busy kind phase staged length begins =>
    obtain ⟨j, -, -, rfl⟩ := beginRecord_runs begins
    exact .inl same
  | entry k e en j st body under =>
    refine .inr (.inl ⟨k, e, en, j, under, ?_⟩)
    rw [← State.journalled_vols en j]
    exact (((Tends.refl _).entryEffect k e).finish st body).vols.follows
  | lost e js j => exact .inl (fin _ _ _ (clearDeleting_follows e))
  | formatErased e n =>
    unfold Machine.formatErased
    dsimp only
    split <;> exact .inl same
  | pinenRises =>
    refine .inl (((Moves.pinenRises _).tends.vols.follows).trans ?_)
    simp only [State.pinenUp, State.removeWaiters_told]
    exact same
  | portCleared p => exact .inl (Tends.portCleared p).vols.follows
  | resetRises | powerFalls | unformatted => exact .inr (.inr (.inl rfl))
  | replayed r powered line starting usable =>
    obtain ⟨slot, checked⟩ := State.compactionCheck_frame { s.deriveRow.emptyClaims with
      vols := r.dir, journal := some r.journal, skipped := r.skipped, mode := .normal }
    exact .inr (.inr (.inr ⟨starting, r, usable, by rw [checked]⟩))
  | _ => exact .inl same

/-! ### A volume keeps its place (R4, R10) -/

/-- The same label, size and base sectors, and no lower a generation counter. -/
def Volume.keepsPlace (x y : Volume) : Prop :=
  y.label = x.label ∧ y.size = x.size ∧ y.baseA = x.baseA ∧ y.baseB = x.baseB ∧ x.genCounter ≤ y.genCounter

theorem Volume.keepsPlace_of_follows {x y z : Volume} (h : x.keepsPlace y) (follows : z.follows y) : x.keepsPlace z := by
  obtain ⟨-, -, fields⟩ := follows
  rw [← fields] at h
  exact h

theorem keepsPlace_of_followsJournal {d e : Directory} {v : Vol} {x : Volume} (h : ∀ y ∈ d[v], x.keepsPlace y)
    (follows : followsJournal e d) : ∀ y ∈ e[v], x.keepsPlace y := fun z used => by
  obtain ⟨some, each⟩ := follows v
  obtain ⟨y, before⟩ := Option.isSome_iff_exists.mp (some.symm.trans (Option.isSome_iff_exists.mpr ⟨z, used⟩))
  exact Volume.keepsPlace_of_follows (h y before) (each z used y before)

/-- No record moves a volume or lowers its generation counter. -/
theorem Effect.keepsPlace {r : JRecord} {x y : Volume} (h : Effect r (some x) (some y)) : x.keepsPlace y := by
  have same : x.keepsPlace x := ⟨rfl, rfl, rfl, rfl, le_rfl⟩
  cases h with
  | access | pin | unpin | rollback => exact same
  | stage b c sl => cases sl <;> exact same
  | commit b c sl gen len crc x slot staging next =>
    cases sl <;> (
      unfold Volume.commit
      dsimp only
      split <;> exact ⟨rfl, rfl, rfl, rfl, by dsimp only; omega⟩)

theorem applied_keepsPlace {d : Directory} {v : Vol} {x : Volume} (used : d[v] = some x) (r : JRecord) :
    ∀ y ∈ (applied r d)[v], x.keepsPlace y := fun y used' => by
  rcases applied_get r d v with same | ⟨-, effect⟩
  · rw [same, used] at used'
    cases used'
    exact ⟨rfl, rfl, rfl, rfl, le_rfl⟩
  · rw [used, used'] at effect
    exact effect.keepsPlace

theorem Reaches.keepsPlace {v : Vol} {x : Volume} (h : Reaches s b t) (begun : s.mode ≠ .starting) (used : s.vols[v] = some x) :
    ∀ y ∈ t.vols[v], x.keepsPlace y := by
  have start : ∀ y ∈ s.vols[v], x.keepsPlace y := fun y used' => by
    rw [Option.mem_def, used] at used'
    cases used'
    exact ⟨rfl, rfl, rfl, rfl, le_rfl⟩
  refine h.keeps (P := fun t => ∀ y ∈ t.vols[v], x.keepsPlace y) start (fun u b e => ?_)
    (fun _ _ keeps m => keepsPlace_of_followsJournal keeps m.tends.vols.follows)
    (fun _ _ keeps a => keepsPlace_of_followsJournal keeps a.tends.vols.follows)
    (fun _ _ keeps q => by obtain ⟨_, rfl⟩ := q.frame; exact keeps)
    (fun _ _ keeps w => keepsPlace_of_followsJournal keeps w.follows)
  rcases e.follows with follows | ⟨k, e, en, j, -, follows⟩ | empty | ⟨starting, -⟩
  · exact keepsPlace_of_followsJournal start follows
  · exact keepsPlace_of_followsJournal (applied_keepsPlace used en.content) follows
  · intro y used'
    simp [empty] at used'
  · exact absurd starting begun

end

/-- Settles O59: records and ended sessions leave a volume where it is, and a part that starts again has cleared its directory. -/
theorem volumesKeepTheirPlace : Obligations.VolumesKeepTheirPlace := fun _ s _ v x y begun used next used' =>
  exec_keeps (P := fun t => ∀ y ∈ t.vols[v], x.keepsPlace y) next
    (fun z used' => by simp [State.poweredOn, State.clearVolatile] at used') (fun reached => reached.keepsPlace begun used) y used'

end Sys2Proof.Machine
end

section
/-! The laws of records, slots, claims and views under each step (R4, R5, R10, R13, R17, R22, R38, R114). -/

namespace Sys2Proof.Machine

section
variable {s t : State} {b : Bool}

/-! ### Open views -/

theorem State.mem_openViews {w : View} : w ∈ s.openViews ↔ ∃ (p : Port) (h : Handle), s.views[p][h] = some w := by
  unfold State.openViews
  rw [List.mem_flatMap]
  constructor
  · rintro ⟨row, mem, mem'⟩
    obtain ⟨o, mem', e⟩ := List.mem_filterMap.mp mem'
    obtain ⟨i, lt, rfl⟩ := Vector.mem_iff_getElem.mp (Vector.mem_toList_iff.mp mem)
    obtain ⟨k, lt', rfl⟩ := Vector.mem_iff_getElem.mp (Vector.mem_toList_iff.mp mem')
    exact ⟨⟨i, lt⟩, ⟨k, lt'⟩, e⟩
  · rintro ⟨p, h, e⟩
    refine ⟨s.views[p], Vector.mem_toList_iff.mpr (Vector.getElem_mem _), List.mem_filterMap.mpr ⟨_, ?_, e⟩⟩
    exact Vector.mem_toList_iff.mpr (Vector.getElem_mem _)

theorem State.viewCount_zero {v : Vol} {sl : Slot} :
    s.viewCount v sl = 0 ↔ ∀ (p : Port) (h : Handle), ∀ w ∈ s.views[p][h], ¬(w.vol = v ∧ w.slot = sl) := by
  unfold State.viewCount
  simp only [List.countP_eq_zero, State.mem_openViews, forall_exists_index, Bool.and_eq_true, beq_iff_eq, Option.mem_def]
  exact ⟨fun none p h w e => none w p h e, fun none w p h e => none p h w e⟩

theorem State.viewed_false {v : Vol} : s.viewed v = false ↔ ∀ (p : Port) (h : Handle), ∀ w ∈ s.views[p][h], w.vol ≠ v := by
  unfold State.viewed
  simp only [List.any_eq_false, State.mem_openViews, forall_exists_index, beq_iff_eq, Option.mem_def]
  exact ⟨fun none p h w e => none w p h e, fun none w p h e => none p h w e⟩

theorem State.viewed_of_counts {v : Vol} (unseenA : s.viewCount v .a = 0) (unseenB : s.viewCount v .b = 0) : s.viewed v = false := by
  rw [State.viewCount_zero] at unseenA unseenB
  refine State.viewed_false.mpr fun p h w mem vol => ?_
  cases slot : w.slot with
  | a => exact unseenA p h w mem ⟨vol, slot⟩
  | b => exact unseenB p h w mem ⟨vol, slot⟩

/-! ### The guard of an entry under program -/

/-- A volume under deletion is flagged, unclaimed and unseen, and the target of a STAGE is not ACTIVE and unseen (R13, R17). -/
def State.guards (s : State) (o : Op) (r : JRecord) : Prop :=
  ∀ v ∈ o.vol, ∀ x ∈ s.vols[v],
    (o.kind = .deleteVolume → x.deleting = true ∧ s.claimOf v = none ∧ s.viewed v = false)
      ∧ ∀ b c, r = .stage b c → ∀ sl ∈ slotOfCode c, (x.slot sl).state ≠ .active ∧ s.viewCount v sl = 0

theorem State.guardLaw_iff : s.guardLaw ↔ ∀ e ∈ s.engine, e.own = none → ∀ en ∈ e.entry, s.guards e.op en.content := Iff.rfl

theorem Tends.guards (h : Tends s t) {o : Op} {r : JRecord} (g : s.guards o r) : t.guards o r := fun v named y used => by
  obtain ⟨x, before, same⟩ := h.vols.before used
  obtain ⟨deletes, stages⟩ := g v named x before
  refine ⟨fun kind => ?_, fun b c content sl slot => ?_⟩
  · obtain ⟨flag, unclaimed, unseen⟩ := deletes kind
    rw [State.claimOf_none] at unclaimed
    rw [State.viewed_false] at unseen
    have stays : ∀ z ∈ s.vols[v], z.deleting ≠ false := fun z used' no => by
      rw [Option.mem_def, before] at used'
      cases used'
      rw [flag] at no
      cases no
    refine ⟨?_, (State.claimOf_none t v).mpr fun d cl mem vol => ?_, State.viewed_false.mpr fun p hd w mem vol => ?_⟩
    · rcases same with rfl | rfl <;> exact flag
    · subst vol
      rcases h.claims d cl mem with ⟨d', x', mem', vol⟩ | ⟨z, used', no⟩
      · exact unclaimed d' x' mem' vol
      · exact stays z used' no
    · subst vol
      rcases h.views p hd w mem with mem' | ⟨z, used', no, -⟩
      · exact unseen p hd w mem' rfl
      · exact stays z used' no
  · obtain ⟨notActive, unseen⟩ := stages b c content sl slot
    rw [State.viewCount_zero] at unseen
    refine ⟨?_, State.viewCount_zero.mpr fun p hd w mem both => ?_⟩
    · rcases same with rfl | rfl
      · exact notActive
      · rw [Volume.endSession_slot, ne_eq, SlotRec.endSession_active]
        exact notActive
    · obtain ⟨vol, slot'⟩ := both
      subst vol slot'
      rcases h.views p hd w mem with mem' | ⟨z, used', -, active, -⟩
      · exact unseen p hd w mem' ⟨rfl, rfl⟩
      · rw [Option.mem_def, before] at used'
        cases used'
        exact notActive (Volume.slotIn_some active)

/-- Every record of the current sector that is under program was so before. -/
def Flies (s t : State) : Prop :=
  ∀ e ∈ t.engine, e.own = none → ∀ en ∈ e.entry, ∃ x ∈ s.engine, x.own = none ∧ en ∈ x.entry ∧ x.op = e.op

theorem Flies.of_idle (idle : t.engine = none) : Flies s t := fun e mem => by
  rw [idle] at mem
  cases mem

theorem Flies.of_eq (same : t.engine = s.engine) : Flies s t := fun e mem own en entry => ⟨e, by rwa [same] at mem, own, entry, rfl⟩

theorem Flies.of_map {f : InFlight → InFlight} (mapped : t.engine = s.engine.map f)
    (same : ∀ e, s.engine = some e → (f e).own = none → e.own = none ∧ (f e).entry = e.entry ∧ (f e).op = e.op) : Flies s t :=
  fun e mem own en entry => by
    rw [mapped] at mem
    obtain ⟨x, busy, rfl⟩ := Option.map_eq_some_iff.mp mem
    obtain ⟨own', entry', op⟩ := same x busy own
    exact ⟨x, busy, own', entry' ▸ entry, op.symm⟩

theorem Flies.recordLaw (h : Flies s t) (law : s.recordLaw) : t.recordLaw := fun e mem own en entry => by
  obtain ⟨x, busy, own', entry', op⟩ := h e mem own en entry
  exact op ▸ law x busy own' en entry'

theorem Flies.guardLaw (h : Flies s t) (tends : Tends s t) (law : s.guardLaw) : t.guardLaw := fun e mem own en entry => by
  obtain ⟨x, busy, own', entry', op⟩ := h e mem own en entry
  exact tends.guards (op ▸ law x busy own' en entry')

theorem Move.flies (m : Move s t) : Flies s t := by
  cases m with
  | suspend => exact .of_map rfl fun _ _ own => ⟨own, rfl, rfl⟩
  | revoke c n =>
    obtain ⟨_, _, _, _, _, e, -⟩ := s.revoke_frame c n
    rw [e]
    exact .of_eq rfl
  | grants =>
    obtain ⟨_, _, _, e, -⟩ := s.grantAll_frame
    rw [e]
    exact .of_eq rfl
  | receive p wire n =>
    unfold State.receive
    split
    · exact .of_eq rfl
    · split <;> exact .of_eq rfl
  | _ => exact .of_eq rfl

theorem Ask.flies (a : Ask s t) : Flies s t := by
  obtain ⟨_, _, _, rfl⟩ := a.frame
  exact .of_eq rfl

/-! ### Claims, views and slots -/

/-- The laws of claims, views and slots. -/
structure State.Lawful (s : State) : Prop where
  claimed : s.claimedLaw
  viewed : s.viewLaw
  slots : s.slotLaw

theorem SlotRec.sound_endSession {r : SlotRec} {n : Nat} (h : r.sound n) : r.endSession.sound n := by
  unfold SlotRec.endSession
  split
  · exact ⟨fun st => (by rcases st with st | st <;> cases st), fun _ => rfl, fun _ mem => nomatch mem⟩
  · exact h

theorem SlotRec.gen_endSession {r : SlotRec} {n : Nat} (h : r.sound n) : r.endSession.gen = r.gen := by
  unfold SlotRec.endSession
  split
  · rename_i staging
    simp [SlotRec.gen, h.2.1 (.inr staging)]
  · rfl

/-- The two slots of a volume keep their relation when a STAGING one becomes STALE (R5, R12). -/
theorem Volume.sound_endSession {x : Volume} (h : x.sound) : x.endSession.sound := by
  obtain ⟨a, b, apart, previousA, previousB, gens⟩ := h
  refine ⟨SlotRec.sound_endSession a, SlotRec.sound_endSession b, fun same => ?_, fun previous => ?_, fun previous => ?_, fun same => ?_⟩
  · change x.slotA.endSession.state = x.slotB.endSession.state at same
    change x.slotA.endSession.state = .empty ∨ x.slotA.endSession.state = .stale
    unfold SlotRec.endSession at same ⊢
    split
    · exact .inr rfl
    · rename_i notStaging
      rw [if_neg notStaging] at same
      split at same
      · exact .inr same
      · exact apart same
  · exact (SlotRec.endSession_active _).mpr (previousA (SlotRec.endSession_state_eq (by decide) previous))
  · exact (SlotRec.endSession_active _).mpr (previousB (SlotRec.endSession_state_eq (by decide) previous))
  · change x.slotA.endSession.gen = x.slotB.endSession.gen at same
    change x.slotA.endSession.gen = 0
    rw [SlotRec.gen_endSession a] at same ⊢
    rw [SlotRec.gen_endSession b] at same
    exact gens same

/-- What a view rests on: the slot holds an image, with this generation and length (R22). -/
def Volume.backs (x : Volume) (w : View) : Prop :=
  ((x.slot w.slot).state = .active ∨ (x.slot w.slot).state = .previous ∨ (x.slot w.slot).state = .stale)
    ∧ (x.slot w.slot).gen = w.gen ∧ (x.slot w.slot).len = w.len

theorem Volume.backs_notStaging {x : Volume} {w : View} (h : x.backs w) : (x.slot w.slot).state ≠ .staging := by
  rcases h.1 with st | st | st <;> rw [st] <;> decide

theorem Volume.backs_endSession {x : Volume} {w : View} (h : x.backs w) : x.endSession.backs w := by
  have slot : x.endSession.slot w.slot = x.slot w.slot := by
    rw [Volume.endSession_slot]
    exact SlotRec.endSession_of_ne (Volume.backs_notStaging h)
  unfold Volume.backs
  rw [slot]
  exact h

theorem Tends.lawful (h : Tends s t) (law : s.Lawful) : t.Lawful where
  claimed c cl mem := by
    have before : (s.vols[cl.vol]).isSome = true := by
      rcases h.claims c cl mem with ⟨d, x, mem', vol⟩ | ⟨x, used, -⟩
      · simpa only [vol] using law.claimed d x mem'
      · exact Option.isSome_iff_exists.mpr ⟨x, used⟩
    obtain ⟨x, used⟩ := Option.isSome_iff_exists.mp before
    rcases h.vols.used used with same | ended <;> exact Option.isSome_iff_exists.mpr ⟨_, by assumption⟩
  viewed p hd w mem := by
    have before : ∃ x ∈ s.vols[w.vol], x.backs w := by
      rcases h.views p hd w mem with mem' | ⟨x, used, -, active, gen, len⟩
      · exact law.viewed p hd w mem'
      · exact ⟨x, used, .inl (Volume.slotIn_some active), gen, len⟩
    obtain ⟨x, used, backs⟩ := before
    rcases h.vols.used used with same | ended
    · exact ⟨x, same, backs⟩
    · exact ⟨_, ended, Volume.backs_endSession backs⟩
  slots v y used := by
    obtain ⟨x, before, same⟩ := h.vols.before used
    rcases same with rfl | rfl
    · exact law.slots v y before
    · exact Volume.sound_endSession (law.slots v x before)

/-- A change of the deletion flag touches none of these laws. -/
theorem State.Lawful.flag (law : s.Lawful) {f : Volume → Volume} (same : ∀ x, ∃ d, f x = { x with deleting := d }) (v : Vol) :
    (s.onVol v f).Lawful where
  claimed c cl mem := by
    rw [State.onVol_get]
    split
    · rw [Option.isSome_map]
      exact law.claimed c cl mem
    · exact law.claimed c cl mem
  viewed p hd w mem := by
    obtain ⟨x, used, backs⟩ := law.viewed p hd w mem
    rw [State.onVol_get]
    split
    · obtain ⟨d, e⟩ := same x
      refine ⟨f x, by rw [used]; rfl, ?_⟩
      rw [e]
      generalize w.slot = sl at backs ⊢
      cases sl <;> exact backs
    · exact ⟨x, used, backs⟩
  slots w y used := by
    rw [State.onVol_get] at used
    split at used
    · obtain ⟨x, before, rfl⟩ := Option.map_eq_some_iff.mp used
      obtain ⟨d, e⟩ := same x
      rw [e]
      exact law.slots w x before
    · exact law.slots w y used

/-! ### Journal entries -/

theorem Volume.created_sound (label : Half) (size a b : Nat) (rd wr : Mask) : (Volume.created label size a b rd wr).sound := by
  have empty : SlotRec.sound { state := .empty, image := none } 0 :=
    ⟨fun st => (by rcases st with st | st <;> cases st), fun _ => rfl, fun _ mem => nomatch mem⟩
  exact ⟨empty, empty, fun _ => .inl rfl, fun st => (nomatch st), fun st => (nomatch st), fun _ => rfl⟩

theorem SlotRec.sound_mono {r : SlotRec} {m n : Nat} (h : r.sound m) (le : m ≤ n) : r.sound n :=
  ⟨h.1, h.2.1, fun i mem => ⟨(h.2.2 i mem).1, (h.2.2 i mem).2.trans le⟩⟩

theorem SlotRec.sound_state {r : SlotRec} {n : Nat} (h : r.sound n) (image : r.image.isSome = true) (st : SlotState)
    (keeps : st ≠ .empty ∧ st ≠ .staging) : SlotRec.sound { r with state := st } n :=
  ⟨fun _ => image, fun e => (e.elim keeps.1 keeps.2).elim, h.2.2⟩

/-- The two slots in the other order. -/
def Volume.swap (x : Volume) : Volume := { x with slotA := x.slotB, slotB := x.slotA }

theorem Volume.sound_swap {x : Volume} : x.swap.sound ↔ x.sound := by
  constructor
  · rintro ⟨a, b, apart, pa, pb, gens⟩
    exact ⟨b, a, fun e => e ▸ apart e.symm, pb, pa, fun e => e.trans (gens e.symm)⟩
  · rintro ⟨a, b, apart, pa, pb, gens⟩
    exact ⟨b, a, fun e => e ▸ apart e.symm, pb, pa, fun e => e.trans (gens e.symm)⟩

/-- The target of a STAGE is not ACTIVE (R5, R13). -/
theorem Volume.target_notActive {x : Volume} (h : x.sound) : (x.slot x.target).state ≠ .active := by
  unfold Volume.target
  cases slot : x.slotIn .active with
  | none =>
    intro active
    simp [Volume.slotIn, show x.slotA.state = .active from active] at slot
  | some sl =>
    intro active
    have both : x.slotA.state = .active ∧ x.slotB.state = .active := by
      have st := Volume.slotIn_some slot
      cases sl
      · exact ⟨st, active⟩
      · exact ⟨active, st⟩
    rcases h.2.2.1 (both.1.trans both.2.symm) with st | st <;> rw [both.1] at st <;> cases st

theorem Volume.sound_stage_a {x : Volume} (h : x.sound) (notActive : x.slotA.state ≠ .active) (noStaging : x.slotB.state ≠ .staging) :
    (x.stage .a).sound := by
  obtain ⟨-, b, -, -, pb, -⟩ := h
  refine ⟨⟨fun st => (by rcases st with st | st <;> cases st), fun _ => rfl, fun _ mem => nomatch mem⟩, b, fun e => ?_, fun st => (nomatch st),
    fun st => ?_, fun _ => rfl⟩
  · exact absurd e.symm noStaging
  · exact absurd (pb st) notActive

theorem Volume.sound_commit_a {x : Volume} {i : Image} (h : x.sound) (staging : x.slotA.state = .staging) (gen : i.gen = x.genCounter + 1) :
    (x.commit .a i).sound := by
  obtain ⟨-, b, -, pa, pb, -⟩ := h
  have new : SlotRec.sound { state := .active, image := some i } i.gen :=
    ⟨fun _ => rfl, fun st => (by rcases st with st | st <;> cases st), fun k mem => (by cases mem; omega)⟩
  have old := SlotRec.sound_mono b (show x.genCounter ≤ i.gen by omega)
  have newer : x.slotB.gen < i.gen := by
    unfold SlotRec.gen
    cases image : x.slotB.image with
    | none => simp only [Option.map_none, Option.getD_none]; omega
    | some k =>
      have := b.2.2 k image
      simp only [Option.map_some, Option.getD_some]
      omega
  have apart : (SlotRec.mk .active (some i)).gen = x.slotB.gen → (SlotRec.mk .active (some i)).gen = 0 := fun e => by
    simp only [SlotRec.gen, Option.map_some, Option.getD_some] at e newer ⊢
    omega
  have notPrevious : x.slotB.state ≠ .previous := fun st => by
    rw [pb st] at staging
    cases staging
  unfold Volume.commit
  dsimp only
  split
  · rename_i active
    exact ⟨new, SlotRec.sound_state old (b.1 (.inl active)) .previous (by decide), fun e => (nomatch e), fun st => (nomatch st), fun _ => rfl, apart⟩
  · rename_i notActive
    exact ⟨new, old, fun e => absurd e.symm notActive, fun st => (nomatch st), fun st => absurd st notPrevious, apart⟩

theorem SlotRec.rollback_of_active {r : SlotRec} (h : r.state = .active) : r.rollback = { r with state := .stale } := by
  unfold SlotRec.rollback
  rw [h]

theorem SlotRec.rollback_of_previous {r : SlotRec} (h : r.state = .previous) : r.rollback = { r with state := .active } := by
  unfold SlotRec.rollback
  rw [h]

theorem SlotRec.rollback_image (r : SlotRec) : r.rollback.image = r.image := by
  unfold SlotRec.rollback
  split <;> rfl

theorem SlotRec.rollback_gen (r : SlotRec) : r.rollback.gen = r.gen := by
  unfold SlotRec.gen
  rw [SlotRec.rollback_image]

theorem SlotRec.rollback_len (r : SlotRec) : r.rollback.len = r.len := by
  unfold SlotRec.len
  rw [SlotRec.rollback_image]

theorem Volume.sound_rollback_a {x : Volume} (h : x.sound) (previous : x.slotA.state = .previous) : x.rollback.sound := by
  obtain ⟨a, b, -, pa, -, gens⟩ := h
  have active := pa previous
  unfold Volume.rollback
  rw [SlotRec.rollback_of_previous previous, SlotRec.rollback_of_active active]
  exact ⟨SlotRec.sound_state a (a.1 (.inr previous)) .active (by decide), SlotRec.sound_state b (b.1 (.inl active)) .stale (by decide),
    fun e => (nomatch e), fun st => (nomatch st), fun st => (nomatch st), gens⟩

/-- Each record keeps the relation of the slots (R5, R9 to R11, R16). -/
theorem Effect.sound {r : JRecord} {z : Option Volume} {y : Volume} (h : Effect r z (some y)) (before : ∀ x ∈ z, x.sound) : y.sound := by
  cases h with
  | create => exact Volume.created_sound ..
  | access b rd wr x | pin b x | unpin b x => exact before x rfl
  | stage b c sl x slot notActive noStaging =>
    have sound := before x rfl
    cases sl with
    | a => exact Volume.sound_stage_a sound notActive noStaging
    | b => exact Volume.sound_swap.mp (Volume.sound_stage_a (Volume.sound_swap.mpr sound) notActive noStaging)
  | commit b c sl gen len crc x slot staging next =>
    have sound := before x rfl
    cases sl with
    | a => exact Volume.sound_commit_a sound staging next
    | b =>
      have swapped := Volume.sound_commit_a (i := { gen := gen.toNat, len := len.toNat, crc := crc }) (Volume.sound_swap.mpr sound) staging next
      refine Volume.sound_swap.mp ?_
      unfold Volume.commit at swapped ⊢
      dsimp only [Slot.other, Volume.slot, Volume.swap, Volume.setSlot] at swapped ⊢
      split at swapped <;> split <;> first | exact swapped | contradiction
  | rollback b x previous =>
    have sound := before x rfl
    obtain ⟨sl, slot⟩ := Option.isSome_iff_exists.mp previous
    cases sl with
    | a => exact Volume.sound_rollback_a sound (Volume.slotIn_some slot)
    | b => exact Volume.sound_swap.mp (Volume.sound_rollback_a (Volume.sound_swap.mpr sound) (Volume.slotIn_some slot))

/-- A slot that a view holds keeps its image through a record of its volume other than a DELETE and the STAGE of that slot. -/
theorem Effect.backs {r : JRecord} {x : Volume} {z : Option Volume} {w : View} (h : Effect r (some x) z) (backs : x.backs w)
    (noDelete : ∀ b, r ≠ .delete b) (noStage : ∀ b c, r = .stage b c → slotOfCode c ≠ some w.slot) : ∃ y ∈ z, y.backs w := by
  cases h with
  | delete b => exact absurd rfl (noDelete b)
  | access b rd wr x | pin b x | unpin b x =>
    refine ⟨_, rfl, ?_⟩
    unfold Volume.backs at backs ⊢
    cases slot : w.slot <;> rw [slot] at backs <;> exact backs
  | stage b c sl x slot =>
    refine ⟨_, rfl, ?_⟩
    have ne : sl ≠ w.slot := fun e => noStage b c rfl (e ▸ slot)
    have same : (x.stage sl).slot w.slot = x.slot w.slot := by
      revert ne
      cases sl <;> cases w.slot <;> intro ne <;> first | rfl | exact absurd rfl ne
    unfold Volume.backs
    rw [same]
    exact backs
  | commit b c sl gen len crc x slot staging =>
    refine ⟨_, rfl, ?_⟩
    have ne : sl ≠ w.slot := fun e => Volume.backs_notStaging backs (e ▸ staging)
    have other : w.slot = sl.other := by
      revert ne
      cases sl <;> cases w.slot <;> intro ne <;> first | rfl | exact absurd rfl ne
    unfold Volume.backs at backs ⊢
    rw [other] at backs ⊢
    unfold Volume.commit
    cases sl <;> (
      dsimp only [Slot.other, Volume.slot, Volume.setSlot] at backs ⊢
      split
      · exact ⟨.inr (.inl rfl), backs.2⟩
      · exact backs)
  | rollback b x =>
    refine ⟨_, rfl, ?_⟩
    have same : x.rollback.slot w.slot = (x.slot w.slot).rollback := by cases w.slot <;> rfl
    unfold Volume.backs at backs ⊢
    rw [same, SlotRec.rollback_gen, SlotRec.rollback_len]
    refine ⟨?_, backs.2⟩
    rcases backs.1 with st | st | st
    · rw [SlotRec.rollback_of_active st]; exact .inr (.inr rfl)
    · rw [SlotRec.rollback_of_previous st]; exact .inl rfl
    · unfold SlotRec.rollback; rw [st]; exact .inr (.inr st)

/-- The volume of a record is that of its operation (R114). -/
theorem vol_of_recordFits {o : Op} {r : JRecord} {v : Vol} (fits : recordFits o r = true) (named : volIndex (recordVol r) = some v) :
    o.vol = some v := by
  have same : o.vol.map volByte = some (recordVol r) := by
    cases r with
    | header | snapVol | snapSlot | snapEnd => cases fits
    | _ => exact eq_of_beq (Bool.and_eq_true_iff.mp fits).2
  obtain ⟨w, vol, byte⟩ := Option.map_eq_some_iff.mp same
  rw [← byte, volIndex_volByte] at named
  cases named
  exact vol

theorem delete_of_recordFits {o : Op} {b : Byte} (fits : recordFits o (.delete b) = true) : o.kind = .deleteVolume :=
  eq_of_beq (Bool.and_eq_true_iff.mp fits).1

/-- A record under program completes within the laws that its guard holds up (R13, R17). -/
theorem State.Lawful.applied (law : s.Lawful) {o : Op} {r : JRecord} (fits : recordFits o r = true) (guards : s.guards o r)
    (vols : t.vols = applied r s.vols) (claims : t.claims = s.claims) (views : t.views = s.views) : t.Lawful where
  claimed c cl mem := by
    rw [claims] at mem
    obtain ⟨x, used⟩ := Option.isSome_iff_exists.mp (law.claimed c cl mem)
    rw [vols]
    rcases applied_get r s.vols cl.vol with same | ⟨named, effect⟩
    · rw [same, used]; rfl
    · generalize (Machine.applied r s.vols)[cl.vol] = z at effect ⊢
      rw [used] at effect
      cases effect with
      | delete b x =>
        have unclaimed := ((guards cl.vol (vol_of_recordFits fits named) x used).1 (delete_of_recordFits fits)).2.1
        exact absurd rfl ((State.claimOf_none s cl.vol).mp unclaimed c cl mem)
      | _ => rfl
  viewed p hd w mem := by
    rw [views] at mem
    obtain ⟨x, used, backs⟩ := law.viewed p hd w mem
    rw [vols]
    rcases applied_get r s.vols w.vol with same | ⟨named, effect⟩
    · exact ⟨x, by rw [same]; exact used, backs⟩
    · obtain ⟨deletes, stages⟩ := guards w.vol (vol_of_recordFits fits named) x used
      rw [used] at effect
      refine effect.backs backs (fun b content => ?_) fun b c content slot => ?_
      · subst content
        exact State.viewed_false.mp (deletes (delete_of_recordFits fits)).2.2 p hd w mem rfl
      · exact State.viewCount_zero.mp (stages b c content w.slot slot).2 p hd w mem ⟨rfl, rfl⟩
  slots v y used := by
    rw [vols] at used
    rcases applied_get r s.vols v with same | ⟨named, effect⟩
    · exact law.slots v y (same ▸ used)
    · rw [used] at effect
      exact effect.sound fun x before => law.slots v x before

/-! ### Every step -/

theorem slotOfCode_slotCode (sl : Slot) : slotOfCode (slotCode sl) = some sl := by cases sl <;> rfl

/-- The record that a start begins is its operation's, and its guard holds (R13, R17, R114). -/
theorem Begun.records {o : Op} (h : Begun o s t) (slots : s.slotLaw)
    (flight : ∀ e ∈ s.engine, e.op = o ∧ e.entry = none) : ∀ e ∈ t.engine, ∀ en ∈ e.entry,
      recordFits e.op en.content = true ∧ t.guards e.op en.content := by
  have begun : ∀ {j : Journal} {r : JRecord} (u : State), u.engine = (s.begun j r).engine → recordFits o r = true → u.guards o r →
      ∀ e ∈ u.engine, ∀ en ∈ e.entry, recordFits e.op en.content = true ∧ u.guards e.op en.content :=
    fun u engine fits guards e mem en entry => by
      rw [engine] at mem
      obtain ⟨x, busy, rfl⟩ := Option.map_eq_some_iff.mp mem
      cases entry
      rw [(flight x busy).1]
      exact ⟨fits, guards⟩
  have entered : ∀ ph : Phase, ∀ e ∈ (s.enter ph).engine, ∀ en ∈ e.entry,
      recordFits e.op en.content = true ∧ (s.enter ph).guards e.op en.content := fun ph e mem en entry => by
    obtain ⟨x, busy, rfl⟩ := Option.map_eq_some_iff.mp mem
    rw [Option.mem_def, (flight x busy).2] at entry
    cases entry
  have noGuard : ∀ {u : State} {r : JRecord}, o.kind ≠ .deleteVolume → (∀ b c, r ≠ .stage b c) → u.guards o r :=
    fun other noStage v _ x _ => ⟨fun kind => absurd kind other, fun b c content => absurd content (noStage b c)⟩
  cases h with
  | create v a b j kind vol | access v x j rd wr kind vol | pin v x j kind vol | unpin v x j kind vol | rollback v x j kind vol =>
    exact begun _ rfl (by simp [recordFits, kind, vol]) (noGuard (by rw [kind]; decide) fun _ _ e => nomatch e)
  | delete v x j kind vol used unclaimed unseenA unseenB =>
    refine begun _ rfl (by simp [recordFits, kind, vol]) fun w named y used' => ?_
    rw [Option.mem_def, vol] at named
    cases named
    refine ⟨fun _ => ⟨?_, unclaimed, State.viewed_of_counts unseenA unseenB⟩, fun _ _ e => nomatch e⟩
    rw [State.onVol_get, if_pos rfl] at used'
    obtain ⟨z, -, rfl⟩ := Option.map_eq_some_iff.mp used'
    rfl
  | stage v x j kind vol used noStaging unseen =>
    refine begun _ rfl (by simp [recordFits, kind, vol]) fun w named y used' => ?_
    rw [Option.mem_def, vol] at named
    cases named
    refine ⟨fun k => (by rw [kind] at k; cases k), fun b c content sl slot => ?_⟩
    cases content
    rw [show s.vols[v] = some y from used'] at used
    cases used
    rw [slotOfCode_slotCode] at slot
    cases slot
    exact ⟨Volume.target_notActive (slots v x used'), unseen⟩
  | _ => exact entered _

end

end Sys2Proof.Machine
end

section
/-! Each step of a command keeps the laws of records, slots, claims and views (R4, R5, R10, R13, R17, R22, R38, R114). -/

namespace Sys2Proof.Machine

/-- The laws of the record under program, of its guard, and of claims, views and slots. -/
structure State.Directed (s : State) : Prop where
  records : s.recordLaw
  guards : s.guardLaw
  lawful : s.Lawful

section
variable {s t : State} {b : Bool}

theorem State.Directed.step (law : s.Directed) (tends : Tends s t) (flies : Flies s t) : t.Directed :=
  ⟨flies.recordLaw law.records, flies.guardLaw tends law.guards, tends.lawful law.lawful⟩

theorem State.Directed.of_idle (lawful : t.Lawful) (idle : t.engine = none) : t.Directed where
  records e mem := by rw [idle] at mem; cases mem
  guards e mem := by rw [idle] at mem; cases mem
  lawful := lawful

theorem State.Lawful.finish (law : s.Lawful) (st : Status) (body : List Byte) : (s.finish st body).Directed :=
  .of_idle (((Tends.refl s).finish st body).lawful law) (State.finish_engine st body)

/-- With no claim and no view only the slots have a law to keep. -/
theorem State.Lawful.of_empty (slots : t.slotLaw) (claims : t.claims = Vector.replicate 4 none)
    (views : t.views = Vector.replicate 4 (Vector.replicate 4 none)) : t.Lawful where
  claimed c cl mem := by simp [claims] at mem
  viewed p h w mem := by simp [views] at mem
  slots := slots

theorem State.slotLaw_of_empty (vols : t.vols = Vector.replicate 32 none) : t.slotLaw := fun v x used => by
  simp [vols] at used

theorem Moves.directed (ms : Moves s t) (law : s.Directed) : t.Directed := ms.keeps law fun _ _ law m => law.step m.tends m.flies

theorem State.takePick_tends {o : Op} (h : s.takePick = some (o, t)) : Tends s t := by
  obtain ⟨_, _, _, _, rfl⟩ := s.takePick_frame o t h
  exact .of_eq rfl rfl rfl

theorem startOp_ends_tends {o : Op} {st : Status} {body : List Byte} (h : startOp o s = .ends st body t) : Tends s t := by
  rcases startOp_ends h with rfl | rfl
  · exact .refl _
  · exact .of_eq rfl rfl rfl

theorem Begun.lawful {o : Op} (h : Begun o s t) (law : s.Lawful) : t.Lawful := by
  cases h with
  | delete v x j =>
    have begun : Tends s (s.begun j (.delete (volByte v))) := .of_eq rfl rfl rfl
    exact (begun.lawful law).flag (f := fun y => { y with deleting := true }) (fun _ => ⟨true, rfl⟩) v
  | _ =>
    refine Tends.lawful ?_ law
    exact .of_eq rfl rfl rfl

theorem Work.directed (w : Work s t) (law : s.Directed) : t.Directed := by
  cases w with
  | runs u t o idle begun picked starts =>
    obtain ⟨port, flight'⟩ := State.takePick_engine picked
    have begins := startOp_runs starts
    have lawful := (State.takePick_tends picked).lawful law.lawful
    have records := begins.records lawful.slots fun e mem => by
      rw [flight'] at mem
      cases mem
      exact ⟨rfl, rfl⟩
    exact ⟨fun e mem _ en entry => (records e mem en entry).1, fun e mem _ en entry => (records e mem en entry).2, begins.lawful lawful⟩
  | ends u v o st body idle begun picked starts =>
    exact (((State.takePick_tends picked).trans (startOp_ends_tends starts)).lawful law.lawful).finish st body

theorem clearDeleting_lawful (law : s.Lawful) (e : InFlight) : (clearDeleting e s).Lawful := by
  unfold clearDeleting forVolume
  split
  · split
    · exact law
    · exact law.flag (f := fun x => { x with deleting := false }) (fun _ => ⟨false, rfl⟩) _
  · exact law

theorem Event.directed (h : Event s b t) (modes : s.modeLaw) (sound : ∀ r, replay s.store = some r → ∀ v : Vol, ∀ x ∈ r.dir[v], x.sound)
    (law : s.Directed) : t.Directed := by
  have same : ∀ u : State, u.vols = s.vols → u.claims = s.claims → u.views = s.views → u.Lawful := fun u v c w =>
    (Tends.of_eq v c w).lawful law.lawful
  have starts : s.mode = .starting → s.engine = none := fun starting => ((State.modeLaw_iff.mp modes).2.1 starting).2.engine
  cases h with
  | finished st body => exact law.lawful.finish st body
  | beginLost | ownLost | compactEraseFails | formatEraseFails | switched | rowWritten =>
    refine State.Lawful.finish ?_ _ _
    exact same _ rfl rfl rfl
  | eraseEnds e n i m store | programEnds e n pg i m store =>
    refine State.Lawful.finish ?_ _ _
    exact ((Tends.of_eq (s := s) (t := { s with store := store }) rfl rfl rfl).setMapEntry _ _ _).lawful law.lawful
  | verified e v x sl len crc u busy kind phase staged length begins =>
    obtain ⟨j, -, -, rfl⟩ := beginRecord_runs begins
    have vol : e.op.vol = some v := by
      revert staged
      unfold State.stagedBy
      split
      · intro staged; cases staged
      · split
        · intro staged; cases staged
        · split <;> intro staged <;> cases staged
          assumption
    have under : ∀ y ∈ (s.begun j (.commit (volByte v) (slotCode sl) (BitVec.ofNat 32 (x.genCounter + 1)) len crc)).engine,
        y.op = e.op ∧ ∀ en ∈ y.entry, en.content = .commit (volByte v) (slotCode sl) (BitVec.ofNat 32 (x.genCounter + 1)) len crc :=
      fun y mem => by
        obtain ⟨z, flight, rfl⟩ := Option.map_eq_some_iff.mp mem
        rw [busy] at flight
        cases flight
        exact ⟨rfl, fun en entry => by cases entry; rfl⟩
    refine ⟨fun y mem _ en entry => ?_, fun y mem _ en entry => ?_, ?_⟩
    · obtain ⟨op, content⟩ := under y mem
      rw [op, content en entry]
      simp [recordFits, kind, vol]
    · obtain ⟨op, content⟩ := under y mem
      intro w named z used
      refine ⟨fun deletes => ?_, fun b c stages => ?_⟩
      · rw [op, kind] at deletes
        cases deletes
      · rw [content en entry] at stages
        cases stages
    · exact same _ rfl rfl rfl
  | entry k e en j st body under =>
    obtain ⟨busy, -, -, own, entry, -⟩ := State.recordUnder_some under
    have lawful : (s.journalled en j).Lawful := by
      obtain ⟨slot, checked⟩ := State.compactionCheck_frame { s with
        store := s.store.program (positionBase j.sector j.append) (entryBytes en)
        journal := some { j with append := j.append + 1, seq := j.seq + 1 }
        vols := applied en.content s.vols }
      rw [State.journalled, checked]
      exact law.lawful.applied (law.records e busy own en entry) (law.guards e busy own en entry) rfl rfl rfl
    exact (((Tends.refl _).entryEffect k e).lawful lawful).finish st body
  | retried =>
    exact law.step (.of_eq rfl rfl rfl) (.of_map rfl fun _ _ own => ⟨own, rfl, rfl⟩)
  | lost e js j =>
    refine State.Lawful.finish (clearDeleting_lawful ?_ e) _ _
    exact same _ rfl rfl rfl
  | ownRetried | compactErased | ownAdvances =>
    exact law.step (.of_eq rfl rfl rfl) (.of_map rfl fun _ _ own => nomatch own)
  | formatErased e n =>
    unfold Machine.formatErased
    dsimp only
    split
    · exact law.step (.of_eq rfl rfl rfl) (.of_map rfl fun _ _ own => ⟨own, rfl, rfl⟩)
    · exact law.step (.of_eq rfl rfl rfl) (.of_map rfl fun _ _ own => nomatch own)
  | pinenRises =>
    refine (Moves.pinenRises _).directed (law.step ?_ ?_) <;> simp only [State.pinenUp, State.removeWaiters_told]
    · exact .of_eq rfl rfl rfl
    · exact .of_eq rfl
  | portCleared p =>
    refine law.step (Tends.portCleared p) ?_
    obtain ⟨cs, e⟩ := s.portCleared_frame p
    rw [e]
    refine .of_map rfl fun x _ own => ?_
    split at own <;> rename_i port <;> simp only [port, if_true, if_false, and_true] <;> exact own
  | pinenFalls | portServes | resetFalls => exact law.step (.of_eq rfl rfl rfl) (.of_eq rfl)
  | resetRises | powerFalls => exact .of_idle (.of_empty (State.slotLaw_of_empty rfl) rfl rfl) rfl
  | unformatted powered line starting =>
    exact .of_idle (.of_empty (State.slotLaw_of_empty rfl) rfl rfl) (starts starting)
  | replayed r powered line starting usable =>
    obtain ⟨slot, checked⟩ := State.compactionCheck_frame { s.deriveRow.emptyClaims with
      vols := r.dir, journal := some r.journal, skipped := r.skipped, mode := .normal }
    rw [checked]
    exact .of_idle (.of_empty (sound r usable) rfl rfl) (starts starting)

theorem Reaches.directed (h : Reaches s b t) (modes : s.modeLaw)
    (sound : ∀ r, replay s.store = some r → ∀ v : Vol, ∀ x ∈ r.dir[v], x.sound) (law : s.Directed) : t.Directed :=
  h.keeps law (fun _ _ e => e.directed modes sound law) (fun _ _ law m => law.step m.tends m.flies)
    (fun _ _ law a => law.step a.tends a.flies)
    (fun _ _ law q => by obtain ⟨_, rfl⟩ := q.frame; exact law.step (.of_eq rfl rfl rfl) (.of_eq rfl)) (fun _ _ law w => w.directed law)

end

end Sys2Proof.Machine
end

section
/-! Staging operations stay bound to the claims that they were taken under, and the work of one lies in the STAGING slot of its volume
(R39, R60, R70). -/

namespace Sys2Proof.Machine

section
variable {s t : State} {b : Bool}

/-! ### Queued operations -/

/-- The operations that still wait find the HELD claims of their port as they were (R39, R55). -/
def HoldsQueue (s t : State) : Prop :=
  ∀ (p : Port), ∀ o ∈ t.fifos[p], o ∈ s.fifos[p]
    ∧ ∀ c ∈ o.claim, ∀ cl ∈ s.claims[c], cl.holder = p → cl.state = .held → ∃ x ∈ t.claims[c], x.identity = cl.identity

theorem HoldsQueue.of_eq (fifos : t.fifos = s.fifos) (claims : t.claims = s.claims) : HoldsQueue s t := fun p o mem =>
  ⟨by rwa [fifos] at mem, fun c _ cl entry _ _ => ⟨cl, by rw [claims]; exact entry, rfl⟩⟩

theorem HoldsQueue.refl (s : State) : HoldsQueue s s := .of_eq rfl rfl

theorem HoldsQueue.trans {u : State} (h : HoldsQueue s t) (h' : HoldsQueue t u) : HoldsQueue s u := fun p o mem => by
  obtain ⟨mem', kept'⟩ := h' p o mem
  obtain ⟨mem'', kept⟩ := h p o mem'
  refine ⟨mem'', fun c bound cl entry holder held => ?_⟩
  obtain ⟨x, entry', same⟩ := kept c bound cl entry holder held
  have fields := same
  simp only [Claim.identity, Prod.mk.injEq] at fields
  obtain ⟨y, entry'', same'⟩ := kept' c bound x entry' (fields.2.1.trans holder) (fields.2.2.trans held)
  exact ⟨y, entry'', same'.trans same⟩

theorem HoldsQueue.of_empty (fifos : t.fifos = Vector.replicate 4 []) : HoldsQueue s t := fun p o mem => by
  simp [fifos] at mem

/-- A claim that is replaced by one of the same identity, or that no queued operation of its holder is bound to while HELD. -/
theorem HoldsQueue.setClaim {c : ClaimIx} {x : Option Claim} (h : HoldsQueue s t)
    (fits : ∀ old ∈ t.claims[c], (∃ new ∈ x, new.identity = old.identity) ∨ old.state ≠ .held
      ∨ ∀ o ∈ t.fifos[old.holder], o.claim ≠ some c) : HoldsQueue s (t.setClaim c x) := by
  refine h.trans fun p o mem => ⟨mem, fun d bound cl entry holder held => ?_⟩
  by_cases e : c = d
  · subst e
    rcases fits cl entry with ⟨new, mem', same⟩ | no | no
    · exact ⟨new, by simpa using mem', same⟩
    · exact absurd held no
    · subst holder
      exact absurd bound (no o mem)
  · have : c.val ≠ d.val := fun h => e (Fin.ext h)
    exact ⟨cl, by simpa [Vector.getElem_set_ne _ _ this] using entry, rfl⟩

theorem HoldsQueue.onClaim {c : ClaimIx} {f : Claim → Claim} (h : HoldsQueue s t) (same : ∀ cl, (f cl).identity = cl.identity) :
    HoldsQueue s (t.onClaim c f) :=
  h.setClaim fun old entry => .inl ⟨f old, by rw [entry]; rfl, same old⟩

theorem HoldsQueue.grantAll (h : HoldsQueue s t) : HoldsQueue s t.grantAll :=
  t.grantAll_keeps (P := HoldsQueue s) h fun u c w h free _ => by
    have waited : HoldsQueue s { u with waits := u.waits.erase w } := h.trans (.of_eq rfl rfl)
    have claimed := waited.setClaim (c := c) (x := some (newClaim u w.vol w.port w.tag)) fun old entry => by
      rw [Option.mem_def, show ({ u with waits := u.waits.erase w } : State).claims[c] = none from State.freeClaim_free free] at entry
      cases entry
    exact claimed.trans (.of_eq rfl rfl)

/-- A revocation removes the queued operations of the claim, all of its holder (R55). -/
theorem HoldsQueue.revoke (h : HoldsQueue s t) (c : ClaimIx) (n : Notice) : HoldsQueue s (t.revoke c n) := by
  cases entry : t.claims[c] with
  | none => simpa only [State.revoke, entry] using h
  | some cl =>
    rw [t.revoke_some c n entry]
    have mine : ∀ o ∈ (t.called c cl n).fifos[cl.holder], o.claim ≠ some c := fun o mem bound => by
      simp only [State.called, Fin.getElem_fin, Vector.getElem_set_self] at mem
      have kept := List.of_mem_filter mem
      simp [Op.boundTo, bound] at kept
    have called : HoldsQueue s (t.called c cl n) := h.trans fun p o mem => by
      refine ⟨?_, fun c _ cl entry _ _ => ⟨cl, entry, rfl⟩⟩
      change o ∈ (t.fifos.set cl.holder (t.fifos[cl.holder].filter (fun o => !Op.boundTo c o)))[p] at mem
      by_cases e : cl.holder = p
      · subst e
        simp only [Fin.getElem_fin, Vector.getElem_set_self] at mem
        exact List.mem_of_mem_filter mem
      · have : cl.holder.val ≠ p.val := fun h => e (Fin.ext h)
        simpa [Vector.getElem_set_ne _ _ this] using mem
    have gone : ∀ x : Option Claim, HoldsQueue s ((t.called c cl n).setClaim c x) := fun x => called.setClaim fun old entry' => by
      rw [Option.mem_def, show (t.called c cl n).claims[c] = some cl from entry] at entry'
      cases entry'
      exact .inr (.inr mine)
    split
    · exact gone _
    · refine HoldsQueue.grantAll ((gone none).trans ?_)
      exact .of_eq rfl rfl

theorem HoldsQueue.removeWaiters (h : HoldsQueue s t) (f : Waiter → Bool) (st : Status) : HoldsQueue s (t.removeWaiters f st) := by
  rw [State.removeWaiters_told]
  exact h.trans (.of_eq rfl rfl)

theorem HoldsQueue.revokeVolume (h : HoldsQueue s t) (v : Vol) (n : Notice) : HoldsQueue s (t.revokeVolume v n) := by
  unfold State.revokeVolume
  split
  · exact h
  · split
    · exact h
    · split
      · exact h.revoke _ n
      · exact h

theorem Move.holdsQueue (m : Move s t) : HoldsQueue s t := by
  cases m with
  | claimFields c f same => exact (HoldsQueue.refl s).onClaim same
  | revoke c n => exact (HoldsQueue.refl s).revoke c n
  | grants => exact (HoldsQueue.refl s).grantAll
  | receive p wire n =>
    unfold State.receive
    split
    · exact .refl s
    · split <;> exact .of_eq rfl rfl
  | _ => exact .of_eq rfl rfl

theorem Ask.holdsQueue (a : Ask s t) : HoldsQueue s t := by
  cases a with
  | claimNow r p v c x room used stays unpinned unclaimed noWait free =>
    have claimed := (HoldsQueue.refl s).setClaim (c := c) (x := some (newClaim s v p r.tag)) fun old entry => by
      rw [Option.mem_def, State.freeClaim_free free] at entry
      cases entry
    exact claimed.trans (.of_eq rfl rfl)
  | _ => exact .of_eq rfl rfl

/-- A claim that is freed at a completion was REVOKING, with nothing queued (R55, R56). -/
theorem HoldsQueue.finish (h : HoldsQueue s t) (st : Status) (body : List Byte) : HoldsQueue s (t.finish st body) := by
  cases busy : t.engine with
  | none => simpa only [State.finish, busy] using h
  | some e =>
    rw [t.finish_some busy]
    split
    · exact h.trans (.of_eq rfl rfl)
    · rename_i c _
      generalize answered : ({ t with hpi := t.completionQueues e st body, engine := none } : State) = u
      have start : HoldsQueue s u := h.trans (.of_eq (by rw [← answered]) (by rw [← answered]))
      cases entry : u.claims[c] with
      | none => rwa [u.lowerClaim_none entry]
      | some cl =>
        cases state : cl.state with
        | held =>
          rw [u.lowerClaim_held entry state]
          refine start.setClaim fun old entry' => ?_
          rw [Option.mem_def, entry] at entry'
          cases entry'
          exact .inl ⟨_, rfl, rfl⟩
        | revoking =>
          rw [u.lowerClaim_revoking entry state]
          have freed : HoldsQueue s (u.setClaim c none) := start.setClaim fun old entry' => by
            rw [Option.mem_def, entry] at entry'
            cases entry'
            exact .inr (.inl (by rw [state]; decide))
          refine HoldsQueue.grantAll (freed.trans ?_)
          exact .of_eq rfl rfl

theorem HoldsQueue.setMapEntry (h : HoldsQueue s t) (c : Option ClaimIx) (i : Nat) (m : MapEntry) :
    HoldsQueue s (t.setMapEntry c i m) := by
  unfold State.setMapEntry
  split
  · exact h
  · exact h.onClaim fun _ => rfl

theorem HoldsQueue.entryEffect (h : HoldsQueue s t) (k : Kind) (e : InFlight) : HoldsQueue s (entryEffect k e t) := by
  have forVol : ∀ f : Vol → State → State, (∀ v, HoldsQueue s (f v t)) → HoldsQueue s (forVolume f e t) := fun f each => by
    unfold forVolume
    split
    · exact h
    · exact each _
  cases k with
  | deleteVolume => exact forVol _ fun v => h.removeWaiters _ _
  | setAccess =>
    refine forVol _ fun v => ?_
    unfold Machine.afterAccess
    split
    · exact h
    · dsimp only
      split
      · exact h.removeWaiters _ _
      · split
        · exact h.removeWaiters _ _
        · split
          · exact (h.removeWaiters _ _).revoke _ _
          · exact h.removeWaiters _ _
  | pin =>
    refine forVol _ fun v => ?_
    unfold Machine.afterPin
    split
    · exact (h.removeWaiters _ _).revokeVolume v .revoked
    · exact h
  | beginStage =>
    change HoldsQueue s (Machine.afterStage e t)
    unfold Machine.afterStage
    split
    · split
      · exact h
      · exact h.onClaim fun _ => by rfl
    · exact h
  | commit =>
    change HoldsQueue s (Machine.afterCommit e t)
    unfold Machine.afterCommit
    split
    · exact h
    · exact h.onClaim fun _ => by rfl
  | _ => exact h

theorem Moves.holdsQueue (ms : Moves s t) : HoldsQueue s t :=
  ms.keeps (P := HoldsQueue s) (.refl s) fun _ _ h m => h.trans m.holdsQueue

theorem State.portCleared_holdsQueue (p : Port) : HoldsQueue s (s.portCleared p) := fun q o mem => by
  refine ⟨?_, fun c _ cl entry _ _ => ?_⟩
  · obtain ⟨cs, e⟩ := s.portCleared_frame p
    rw [e] at mem
    change o ∈ (s.fifos.set p [])[q] at mem
    by_cases same : p = q
    · subst same
      simp at mem
    · have : p.val ≠ q.val := fun h => same (Fin.ext h)
      simpa [Vector.getElem_set_ne _ _ this] using mem
  · obtain ⟨g, e⟩ := s.portCleared_claims p c
    exact ⟨{ cl with pending := g cl }, by rw [e, entry]; rfl, rfl⟩

theorem Event.holdsQueue (h : Event s b t) (modes : s.modeLaw) : HoldsQueue s t := by
  have starts : s.mode = .starting → s.fifos = Vector.replicate 4 [] := fun starting =>
    ((State.modeLaw_iff.mp modes).2.1 starting).2.fifos
  cases h with
  | finished st body => exact (HoldsQueue.refl s).finish st body
  | beginLost | ownLost | compactEraseFails | formatEraseFails | switched | rowWritten =>
    refine HoldsQueue.finish ?_ _ _
    exact .of_eq rfl rfl
  | eraseEnds e n i m store | programEnds e n pg i m store =>
    refine HoldsQueue.finish (HoldsQueue.setMapEntry ?_ _ _ _) _ _
    exact .of_eq rfl rfl
  | verified e v x sl len crc u busy kind phase staged length begins =>
    obtain ⟨j, -, -, rfl⟩ := beginRecord_runs begins
    exact .of_eq rfl rfl
  | entry k e en j st body under =>
    refine HoldsQueue.finish (HoldsQueue.entryEffect ?_ k e) _ _
    obtain ⟨slot, checked⟩ := State.compactionCheck_frame { s with
      store := s.store.program (positionBase j.sector j.append) (entryBytes en)
      journal := some { j with append := j.append + 1, seq := j.seq + 1 }
      vols := applied en.content s.vols }
    rw [State.journalled, checked]
    exact .of_eq rfl rfl
  | lost e js j =>
    refine HoldsQueue.finish ?_ _ _
    obtain ⟨d, cleared⟩ := clearDeleting_frame e { s.passedOver j with mode := .degraded }
    rw [cleared]
    exact .of_eq rfl rfl
  | formatErased e n =>
    unfold Machine.formatErased
    dsimp only
    split <;> exact .of_eq rfl rfl
  | pinenRises =>
    refine HoldsQueue.trans ?_ (Moves.pinenRises _).holdsQueue
    simp only [State.pinenUp, State.removeWaiters_told]
    exact .of_eq rfl rfl
  | portCleared p => exact State.portCleared_holdsQueue p
  | resetRises | powerFalls => exact .of_empty rfl
  | unformatted powered line starting => exact .of_empty (starts starting)
  | replayed r powered line starting =>
    obtain ⟨slot, checked⟩ := State.compactionCheck_frame { s.deriveRow.emptyClaims with
      vols := r.dir, journal := some r.journal, skipped := r.skipped, mode := .normal }
    rw [checked]
    exact .of_empty (starts starting)
  | _ => exact .of_eq rfl rfl

/-! ### The operation in flight -/

/-- The operation in flight and its work sector were there before, and its claim and volume are as they were. -/
structure HoldsFlight (s t : State) : Prop where
  flight : ∀ e ∈ t.engine, ∃ x ∈ s.engine, x.op = e.op ∧ ∀ n ∈ e.workSector, n ∈ x.workSector
  claims : ∀ c : ClaimIx, ∀ cl ∈ s.claims[c], t.flightOf c = true → (∃ x ∈ t.claims[c], x.vol = cl.vol) ∧ t.vols[cl.vol] = s.vols[cl.vol]

theorem HoldsFlight.of_idle (idle : t.engine = none) : HoldsFlight s t where
  flight e mem := by rw [idle] at mem; cases mem
  claims c cl _ flight := by simp [State.flightOf, idle] at flight

theorem HoldsFlight.of_map {f : InFlight → InFlight} (mapped : t.engine = s.engine.map f) (vols : t.vols = s.vols)
    (claims : ∀ c : ClaimIx, ∀ cl ∈ s.claims[c], ∃ x ∈ t.claims[c], x.vol = cl.vol)
    (same : ∀ e, s.engine = some e → (f e).op = e.op ∧ ∀ n ∈ (f e).workSector, n ∈ e.workSector) : HoldsFlight s t where
  flight e mem := by
    rw [mapped] at mem
    obtain ⟨x, busy, rfl⟩ := Option.map_eq_some_iff.mp mem
    exact ⟨x, busy, (same x busy).1.symm, (same x busy).2⟩
  claims c cl entry _ := ⟨claims c cl entry, by rw [vols]⟩

theorem HoldsFlight.of_eq (engine : t.engine = s.engine) (vols : t.vols = s.vols) (claims : t.claims = s.claims) : HoldsFlight s t :=
  .of_map (f := id) (by rw [engine, Option.map_id_apply]) vols (fun c cl entry => ⟨cl, by rwa [claims], rfl⟩) fun _ _ => ⟨rfl, fun _ h => h⟩

theorem HoldsFlight.flightOf (h : HoldsFlight s t) {c : ClaimIx} (flight : t.flightOf c = true) : s.flightOf c = true := by
  obtain ⟨e, busy, claim⟩ := (t.flightOf_iff c).mp flight
  obtain ⟨x, busy', op, -⟩ := h.flight e busy
  exact (s.flightOf_iff c).mpr ⟨x, busy', by rw [op, claim]⟩

theorem HoldsFlight.trans {u : State} (h : HoldsFlight s t) (h' : HoldsFlight t u) : HoldsFlight s u where
  flight e mem := by
    obtain ⟨x, busy, op, work⟩ := h'.flight e mem
    obtain ⟨y, busy', op', work'⟩ := h.flight x busy
    exact ⟨y, busy', op'.trans op, fun n mem => work' n (work n mem)⟩
  claims c cl entry flight := by
    obtain ⟨⟨x, entry', vol⟩, vols⟩ := h.claims c cl entry (h'.flightOf flight)
    obtain ⟨⟨y, entry'', vol'⟩, vols'⟩ := h'.claims c x entry' flight
    refine ⟨⟨y, entry'', vol'.trans vol⟩, ?_⟩
    have vols' : u.vols[cl.vol] = t.vols[cl.vol] := by simpa only [vol] using vols'
    exact vols'.trans vols

theorem HoldsFlight.refl (s : State) : HoldsFlight s s := .of_eq rfl rfl rfl

theorem HoldsFlight.grantAll (h : HoldsFlight s t) : HoldsFlight s t.grantAll :=
  t.grantAll_keeps (P := HoldsFlight s) h fun u c w h free _ => h.trans (.of_map (f := id) (Option.map_id_apply.symm) rfl
    (fun d cl entry => by
      refine ⟨cl, ?_, rfl⟩
      change cl ∈ (u.claims.set c _)[d]
      by_cases e : c = d
      · subst e
        rw [Option.mem_def, State.freeClaim_free free] at entry
        cases entry
      · have : c.val ≠ d.val := fun h => e (Fin.ext h)
        simpa [Vector.getElem_set_ne _ _ this] using entry) fun _ _ => ⟨rfl, fun _ h => h⟩)

/-- A revocation frees no claim with an operation in flight, and ends the session of no volume but that of the freed claim (R38, R55). -/
theorem HoldsFlight.revoke (unique : s.uniqueLaw) (c : ClaimIx) (n : Notice) : HoldsFlight s (s.revoke c n) := by
  cases entry : s.claims[c] with
  | none => simpa only [State.revoke, entry] using HoldsFlight.refl s
  | some cl =>
    rw [s.revoke_some c n entry]
    split
    · refine .of_map (f := id) (Option.map_id_apply.symm) rfl (fun d x entry' => ?_) fun _ _ => ⟨rfl, fun _ h => h⟩
      change ∃ y ∈ (s.claims.set c _)[d], y.vol = x.vol
      by_cases e : c = d
      · subst e
        rw [Option.mem_def, entry] at entry'
        cases entry'
        exact ⟨_, Vector.getElem_set_self _, rfl⟩
      · have : c.val ≠ d.val := fun h => e (Fin.ext h)
        exact ⟨x, by simpa [Vector.getElem_set_ne _ _ this] using entry', rfl⟩
    · rename_i noFlight
      refine HoldsFlight.grantAll ⟨fun e mem => ⟨e, mem, rfl, fun _ h => h⟩, fun d x entry' flight => ?_⟩
      have ne : c ≠ d := fun e => noFlight (e ▸ flight)
      have this : c.val ≠ d.val := fun h => ne (Fin.ext h)
      have apart : cl.vol ≠ x.vol := fun same => ne (unique c d cl entry x entry' same)
      refine ⟨⟨x, ?_, rfl⟩, ?_⟩
      · change x ∈ (s.claims.set c none)[d]
        simpa [Vector.getElem_set_ne _ _ this] using entry'
      · change (s.vols.set cl.vol ((s.vols[cl.vol]).map Volume.endSession))[x.vol] = _
        rw [directory_set_get, if_neg apart]

theorem Move.holdsFlight (m : Move s t) (unique : s.uniqueLaw) : HoldsFlight s t := by
  cases m with
  | claimFields c f same =>
    refine .of_map (f := id) (Option.map_id_apply.symm) rfl (fun d x entry => ?_) fun _ _ => ⟨rfl, fun _ h => h⟩
    rw [s.onClaim_get]
    split
    · have fields := same x
      simp only [Claim.identity, Prod.mk.injEq] at fields
      exact ⟨f x, by rw [entry]; rfl, fields.1⟩
    · exact ⟨x, entry, rfl⟩
  | suspend => exact .of_map rfl rfl (fun c cl entry => ⟨cl, entry, rfl⟩) fun _ _ => ⟨rfl, fun _ h => h⟩
  | revoke c n => exact .revoke unique c n
  | grants => exact (HoldsFlight.refl s).grantAll
  | receive p wire n =>
    unfold State.receive
    split
    · exact .refl s
    · split <;> exact .of_eq rfl rfl rfl
  | _ => exact .of_eq rfl rfl rfl

theorem Ask.holdsFlight (a : Ask s t) : HoldsFlight s t := by
  cases a with
  | claimNow r p v c x room used stays unpinned unclaimed noWait free =>
    refine .of_map (f := id) (Option.map_id_apply.symm) rfl (fun d y entry => ?_) fun _ _ => ⟨rfl, fun _ h => h⟩
    refine ⟨y, ?_, rfl⟩
    change y ∈ (s.claims.set c _)[d]
    by_cases e : c = d
    · subst e
      rw [Option.mem_def, State.freeClaim_free free] at entry
      cases entry
    · have : c.val ≠ d.val := fun h => e (Fin.ext h)
      simpa [Vector.getElem_set_ne _ _ this] using entry
  | _ => exact .of_eq rfl rfl rfl

theorem Moves.holdsFlight (ms : Moves s t) (unique : s.uniqueLaw) : HoldsFlight s t :=
  (ms.keeps (P := fun t => t.uniqueLaw ∧ HoldsFlight s t) ⟨unique, .refl s⟩ fun _ _ h m =>
    ⟨m.uniqueLaw h.1, h.2.trans (m.holdsFlight h.1)⟩).2

/-- Events other than those that end an operation leave its work where it was, or take it to a journal sector. -/
theorem Event.holdsFlight (h : Event s b t) (modes : s.modeLaw) (unique : s.uniqueLaw) : HoldsFlight s t := by
  have starts : s.mode = .starting → s.engine = none := fun starting => ((State.modeLaw_iff.mp modes).2.1 starting).2.engine
  have same : ∀ c : ClaimIx, ∀ cl ∈ s.claims[c], ∃ x ∈ s.claims[c], x.vol = cl.vol := fun c cl entry => ⟨cl, entry, rfl⟩
  cases h with
  | verified e v x sl len crc u busy kind phase staged length begins =>
    obtain ⟨j, -, -, rfl⟩ := beginRecord_runs begins
    exact .of_map rfl rfl same fun _ _ => ⟨rfl, fun _ h => nomatch h⟩
  | retried | ownRetried => exact .of_map rfl rfl same fun _ _ => ⟨rfl, fun _ h => h⟩
  | compactErased => exact .of_map rfl rfl same fun _ _ => ⟨rfl, fun _ h => nomatch h⟩
  | ownAdvances => exact .of_map rfl rfl same fun _ _ => ⟨rfl, fun _ h => h⟩
  | formatErased e n busy kind =>
    unfold Machine.formatErased
    dsimp only
    split
    · refine .of_map rfl rfl same fun x flight => ⟨rfl, fun m mem => ?_⟩
      rw [show s.engine = some e from busy] at flight
      cases flight
      simp [InFlight.workSector, kind] at mem
    · exact .of_map rfl rfl same fun _ _ => ⟨rfl, fun _ h => nomatch h⟩
  | pinenRises =>
    have up : HoldsFlight s s.pinenUp := by
      simp only [State.pinenUp, State.removeWaiters_told]
      exact .of_eq rfl rfl rfl
    have unique' : s.pinenUp.uniqueLaw :=
      ((Shrinks.of_eq (s := s) (t := { s with pinen := true }) rfl rfl).removeWaiters _ _).uniqueLaw unique
    exact up.trans ((Moves.pinenRises _).holdsFlight unique')
  | portCleared p =>
    have claims : ∀ c : ClaimIx, ∀ cl ∈ s.claims[c], ∃ x ∈ (s.portCleared p).claims[c], x.vol = cl.vol := fun c cl entry => by
      obtain ⟨g, e⟩ := s.portCleared_claims p c
      exact ⟨{ cl with pending := g cl }, by rw [e, entry]; rfl, rfl⟩
    obtain ⟨cs, e⟩ := s.portCleared_frame p
    rw [e] at claims ⊢
    refine .of_map rfl rfl claims fun x _ => ?_
    split
    · exact ⟨rfl, fun _ h => h⟩
    · exact ⟨rfl, fun _ h => h⟩
  | pinenFalls | portServes | resetFalls => exact .of_eq rfl rfl rfl
  | resetRises | powerFalls => exact .of_idle rfl
  | unformatted powered line starting => exact .of_idle (starts starting)
  | replayed r powered line starting =>
    obtain ⟨slot, checked⟩ := State.compactionCheck_frame { s.deriveRow.emptyClaims with
      vols := r.dir, journal := some r.journal, skipped := r.skipped, mode := .normal }
    rw [checked]
    exact .of_idle (starts starting)
  | _ => exact .of_idle (State.finish_engine _ _)

/-! ### The two laws -/

theorem State.bindLaw.step (law : s.bindLaw) (queue : HoldsQueue s t) (flight : HoldsFlight s t) : t.bindLaw := by
  obtain ⟨flies, queued⟩ := law
  refine ⟨fun e mem bound => ?_, fun p o mem => ?_⟩
  · obtain ⟨x, busy, op, -⟩ := flight.flight e mem
    rw [← op] at bound ⊢
    obtain ⟨c, claim, cl, entry, vol⟩ := flies x busy bound
    obtain ⟨⟨y, entry', vol'⟩, -⟩ := flight.claims c cl entry ((t.flightOf_iff c).mpr ⟨e, mem, by rw [← op]; exact claim⟩)
    exact ⟨c, claim, y, entry', by rw [vol, vol']⟩
  · obtain ⟨mem', kept⟩ := queue p o mem
    obtain ⟨data, bound⟩ := queued p o mem'
    refine ⟨data, fun kind => ?_⟩
    obtain ⟨c, claim, cl, entry, holder, held, vol⟩ := bound kind
    obtain ⟨x, entry', same⟩ := kept c claim cl entry holder held
    simp only [Claim.identity, Prod.mk.injEq] at same
    exact ⟨c, claim, x, entry', same.2.1.trans holder, same.2.2.trans held, by rw [vol, same.1]⟩

theorem State.stagingLaw.step (law : s.stagingLaw) (flight : HoldsFlight s t) : t.stagingLaw := fun e mem n work => by
  obtain ⟨x, busy, op, work'⟩ := flight.flight e mem
  obtain ⟨c, claim, cl, entry, vol, y, used, rest⟩ := law x busy n (work' n work)
  obtain ⟨⟨z, entry', vol'⟩, vols⟩ := flight.claims c cl entry ((t.flightOf_iff c).mpr ⟨e, mem, by rw [← op]; exact claim⟩)
  refine ⟨c, by rw [← op]; exact claim, z, entry', by rw [← op, vol, vol'], y, ?_, rest⟩
  rw [← vols] at used
  simpa only [vol'] using used

theorem Queue.bindLaw (q : Queue s t) (law : s.bindLaw) : t.bindLaw := by
  obtain ⟨p, o, room, short, begun, fits⟩ := q
  refine ⟨law.1, fun q x mem => ?_⟩
  change x ∈ (s.fifos.set p (s.fifos[p] ++ [o]))[q] at mem
  by_cases e : p = q
  · subst e
    simp only [Fin.getElem_fin, Vector.getElem_set_self] at mem
    rcases List.mem_append.mp mem with mem | last
    · exact law.2 p x mem
    · rw [List.mem_singleton] at last
      subst last
      exact ⟨fits.program, fits.bound⟩
  · have : p.val ≠ q.val := fun h => e (Fin.ext h)
    exact law.2 q x (by simpa [Vector.getElem_set_ne _ _ this] using mem)

/-- A picked operation comes from the FIFO of its port, or is the COMPACT of the compaction slot (R90). -/
theorem State.takePick_op {o : Op} (picked : s.takePick = some (o, t)) : o = compactOp ∨ ∃ p : Port, o ∈ s.fifos[p] := by
  rcases State.takePick_cases picked with ⟨-, rfl, -⟩ | ⟨-, p, rest, fifo, -⟩
  · exact .inl rfl
  · exact .inr ⟨p, by rw [fifo]; exact List.mem_cons_self⟩

/-- A picked staging operation is bound to the claim on its volume, and a PROGRAM has data. -/
theorem State.bindLaw.picked (law : s.bindLaw) {o : Op} (picked : s.takePick = some (o, t)) :
    (o.kind ∈ claimBoundKinds → ∃ c ∈ o.claim, ∃ cl ∈ s.claims[c], o.vol = some cl.vol)
      ∧ (o.kind = .program → 1 ≤ programLength o.params) := by
  rcases State.takePick_op picked with rfl | ⟨p, mem⟩
  · exact ⟨fun bound => absurd bound (by decide), fun kind => nomatch kind⟩
  · obtain ⟨data, bound⟩ := law.2 p o mem
    refine ⟨fun kind => ?_, fun kind => (data kind).1⟩
    obtain ⟨c, claim, cl, entry, -, -, vol⟩ := bound kind
    exact ⟨c, claim, cl, entry, vol⟩

theorem Begun.op {o : Op} (h : Begun o s t) : ∀ e ∈ t.engine, ∃ x ∈ s.engine, e.op = x.op := by
  cases h <;> (
    intro e mem
    obtain ⟨x, busy, rfl⟩ := Option.map_eq_some_iff.mp mem
    exact ⟨x, busy, rfl⟩)

/-- The work that a start begins outside the journal lies in the STAGING slot of the volume (R68, R72). -/
theorem Begun.workSector {o : Op} (h : Begun o s t) (flight : ∀ e ∈ s.engine, e.op = o ∧ e.phase = .none)
    (data : o.kind = .program → 1 ≤ programLength o.params) : ∀ e ∈ t.engine, ∀ n ∈ e.workSector,
      (o.kind = .erase ∨ o.kind = .program) ∧ ∃ v x sl, o.vol = some v ∧ t.vols[v] = some x ∧ x.slotIn .staging = some sl
        ∧ x.base sl ≤ n ∧ n < x.base sl + x.size := by
  cases h with
  | erase v x sl kind vol used staging inside =>
    intro e mem n work
    obtain ⟨y, busy, rfl⟩ := Option.map_eq_some_iff.mp mem
    simp only [InFlight.workSector, (flight y busy).1, kind, if_true, Option.mem_def, Option.some.injEq] at work
    refine ⟨.inl kind, v, x, sl, vol, used, staging, ?_, ?_⟩ <;> omega
  | program v x sl kind vol used staging inside =>
    intro e mem n work
    obtain ⟨y, busy, rfl⟩ := Option.map_eq_some_iff.mp mem
    simp only [InFlight.workSector, Option.mem_def, Option.some.injEq] at work
    have one := data kind
    have lt : programSectorIx o.params < x.size := by
      unfold programSectorIx
      refine (Nat.div_lt_iff_lt_mul (by decide)).mpr ?_
      unfold Volume.slotBytes at inside
      omega
    refine ⟨.inr kind, v, x, sl, vol, used, staging, ?_, ?_⟩ <;> omega
  | format kind | compact j kind =>
    intro e mem n work
    obtain ⟨y, busy, rfl⟩ := Option.map_eq_some_iff.mp mem
    simp [InFlight.workSector, (flight y busy).1, kind] at work
  | _ =>
    intro e mem n work
    obtain ⟨y, busy, rfl⟩ := Option.map_eq_some_iff.mp mem
    cases work

theorem State.takePick_holdsQueue {o : Op} (picked : s.takePick = some (o, t)) : HoldsQueue s t := fun p x mem => by
  refine ⟨State.takePick_queued picked p x mem, fun c _ cl entry _ _ => ⟨cl, ?_, rfl⟩⟩
  obtain ⟨_, _, _, _, rfl⟩ := s.takePick_frame o t picked
  exact entry

theorem Begun.fifos_claims {o : Op} (h : Begun o s t) : t.fifos = s.fifos ∧ t.claims = s.claims := by
  obtain ⟨_, _, rfl⟩ := h.frame
  exact ⟨rfl, rfl⟩

theorem Work.bindLaws (w : Work s t) (bind : s.bindLaw) : t.bindLaw ∧ t.stagingLaw := by
  cases w with
  | runs u t o idle begun picked starts =>
    obtain ⟨bound, data⟩ := bind.picked picked
    have begins := startOp_runs starts
    obtain ⟨fifos, claims⟩ := begins.fifos_claims
    obtain ⟨port, flight'⟩ := State.takePick_engine picked
    have queue := (State.takePick_holdsQueue picked).trans (.of_eq fifos claims)
    have claims' : t.claims = s.claims := by
      obtain ⟨_, _, _, _, rfl⟩ := s.takePick_frame o u picked
      exact claims
    have op : ∀ e ∈ t.engine, e.op = o := fun e mem => by
      obtain ⟨x, busy, op⟩ := begins.op e mem
      rw [flight'] at busy
      cases busy
      exact op
    refine ⟨⟨fun e mem kind => ?_, fun p x mem => ?_⟩, fun e mem n work => ?_⟩
    · rw [op e mem] at kind ⊢
      rw [claims']
      exact bound kind
    · obtain ⟨mem', kept⟩ := queue p x mem
      refine ⟨(bind.2 p x mem').1, fun kind => ?_⟩
      rw [claims']
      exact (bind.2 p x mem').2 kind
    · obtain ⟨kind, v, x, sl, vol, used, staging, inside⟩ := begins.workSector (fun e mem => by
        rw [flight'] at mem
        cases mem
        exact ⟨rfl, rfl⟩) data e mem n work
      have kinds : o.kind ∈ claimBoundKinds := by rcases kind with kind | kind <;> rw [kind] <;> decide
      obtain ⟨c, claim, cl, entry, vol'⟩ := bound kinds
      rw [vol] at vol'
      cases vol'
      rw [op e mem, claims']
      exact ⟨c, claim, cl, entry, vol, x, used, sl, staging, inside⟩
  | ends u v o st body idle begun picked starts =>
    have queue : HoldsQueue s v := by
      rcases startOp_ends starts with rfl | rfl
      · exact State.takePick_holdsQueue picked
      · exact (State.takePick_holdsQueue picked).trans (.of_eq rfl rfl)
    have idle := State.finish_engine (s := v) st body
    refine ⟨bind.step (queue.finish st body) (.of_idle idle), fun e mem => ?_⟩
    rw [idle] at mem
    cases mem

theorem Reaches.bindLaws (h : Reaches s b t) (modes : s.modeLaw) (unique : s.uniqueLaw) (bind : s.bindLaw) (staging : s.stagingLaw) :
    t.bindLaw ∧ t.stagingLaw := by
  have all : t.uniqueLaw ∧ t.bindLaw ∧ t.stagingLaw := h.keeps (P := fun t => t.uniqueLaw ∧ t.bindLaw ∧ t.stagingLaw)
    ⟨unique, bind, staging⟩
    (fun _ _ e => ⟨e.uniqueLaw unique, bind.step (e.holdsQueue modes) (e.holdsFlight modes unique), staging.step (e.holdsFlight modes unique)⟩)
    (fun _ _ ⟨unique, bind, staging⟩ m =>
      ⟨m.uniqueLaw unique, bind.step m.holdsQueue (m.holdsFlight unique), staging.step (m.holdsFlight unique)⟩)
    (fun _ _ ⟨unique, bind, staging⟩ a =>
      ⟨a.uniqueLaw unique, bind.step a.holdsQueue a.holdsFlight, staging.step a.holdsFlight⟩)
    (fun u w ⟨unique, bind, staging⟩ q => by
      refine ⟨?_, q.bindLaw bind, ?_⟩ <;> obtain ⟨_, rfl⟩ := q.frame
      · exact (Shrinks.of_eq rfl rfl).uniqueLaw unique
      · exact staging.step (.of_eq rfl rfl rfl))
    (fun _ _ ⟨unique, bind, _⟩ w => ⟨w.uniqueLaw unique, w.bindLaws bind⟩)
  exact all.2

end

end Sys2Proof.Machine
end

section
/-! What a byte of the array reads as after a program, an erase, and work that was cut short or failed (R1, R2, R94). -/

namespace Sys2Proof.Machine

/-- The draw of the undefined content that an address lies in, if it lies in any. -/
def drawIn (xs : List Area) (a : Nat) : Option Nat := (xs.find? (fun x => x.holds a)).map Area.draw

theorem Store.read_eq (st : Store) (a : Nat) : st.read a = match drawIn st.spoiled a with
    | some d => Config.freeByte d st.powerOns a
    | none => (cellAt st.cells a).getD erasedByte := by
  unfold Store.read drawIn
  cases st.spoiled.find? (fun x => x.holds a) <;> rfl

theorem Area.holds_iff {x : Area} {a : Nat} : x.holds a = true ↔ x.lo ≤ a ∧ a < x.hi := by
  simp [Area.holds]

theorem drawIn_append (xs ys : List Area) (a : Nat) : drawIn (xs ++ ys) a = (drawIn xs a).or (drawIn ys a) := by
  unfold drawIn
  rw [List.find?_append]
  cases xs.find? (fun x => x.holds a) <;> rfl

theorem drawIn_singleton (x : Area) (a : Nat) : drawIn [x] a = if x.lo ≤ a ∧ a < x.hi then some x.draw else none := by
  unfold drawIn
  rw [List.find?_singleton]
  simp only [Area.holds_iff]
  split <;> rfl

theorem drawIn_none {xs : List Area} {a : Nat} (h : ∀ x ∈ xs, ¬(x.lo ≤ a ∧ a < x.hi)) : drawIn xs a = none := by
  unfold drawIn
  rw [List.find?_eq_none.mpr fun x mem => by rw [Area.holds_iff]; exact h x mem]
  rfl

theorem drawIn_filter {xs : List Area} {g : Area → Bool} {a : Nat} (h : ∀ x ∈ xs, x.lo ≤ a ∧ a < x.hi → g x = true) :
    drawIn (xs.filter g) a = drawIn xs a := by
  unfold drawIn
  congr 1
  induction xs with
  | nil => rfl
  | cons x rest ih =>
    have ih := ih fun y mem => h y (List.mem_cons_of_mem _ mem)
    cases hx : x.holds a with
    | false => cases hg : g x <;> simp [List.filter, hg, hx, ih]
    | true => simp [List.filter, hx, h x List.mem_cons_self (Area.holds_iff.mp hx)]

/-- What remains of an area holds the addresses of the area outside the stretch. -/
theorem Area.drawIn_outside (x : Area) {lo hi : Nat} (le : lo ≤ hi) (a : Nat) :
    drawIn (x.outside lo hi) a = if lo ≤ a ∧ a < hi then none else drawIn [x] a := by
  unfold Area.outside
  split
  · rename_i meets
    rw [drawIn_append]
    have below : drawIn (if x.lo < lo then [{ x with hi := lo }] else []) a = if x.lo ≤ a ∧ a < lo then some x.draw else none := by
      split
      · rw [drawIn_singleton]
      · rw [if_neg (by omega)]; rfl
    have above : drawIn (if hi < x.hi then [{ x with lo := hi }] else []) a = if hi ≤ a ∧ a < x.hi then some x.draw else none := by
      split
      · rw [drawIn_singleton]
      · rw [if_neg (by omega)]; rfl
    simp only [Area.meets, Bool.and_eq_true, decide_eq_true_eq] at meets
    rw [below, above, drawIn_singleton]
    by_cases inside : lo ≤ a ∧ a < hi
    · rw [if_neg (by omega), if_neg (by omega), if_pos inside]; rfl
    · rw [if_neg inside]
      by_cases low : a < lo
      · rw [if_neg (show ¬(hi ≤ a ∧ a < x.hi) by omega), Option.or_none]
        exact if_congr (by omega) rfl rfl
      · rw [if_neg (show ¬(x.lo ≤ a ∧ a < lo) by omega), Option.none_or]
        exact if_congr (by omega) rfl rfl
  · rename_i apart
    simp only [Area.meets, Bool.and_eq_true, decide_eq_true_eq] at apart
    split
    · exact drawIn_none fun y mem => by
        rw [List.mem_singleton.mp mem]
        omega
    · rfl

theorem drawIn_areasOutside (xs : List Area) {lo hi : Nat} (le : lo ≤ hi) (a : Nat) :
    drawIn (areasOutside xs lo hi) a = if lo ≤ a ∧ a < hi then none else drawIn xs a := by
  induction xs with
  | nil => exact (ite_self none).symm
  | cons x rest ih =>
    unfold areasOutside at ih ⊢
    rw [List.flatMap_cons, drawIn_append, Area.drawIn_outside x le, ih, show x :: rest = [x] ++ rest from rfl, drawIn_append [x]]
    split <;> rfl

theorem cellAt_append (cs ds : List Host.Cell) (a : Nat) : cellAt (cs ++ ds) a = (cellAt cs a).or (cellAt ds a) := by
  unfold cellAt
  rw [List.find?_append]
  cases cs.find? (fun c => c.1 == a) <;> rfl

theorem cellAt_none {cs : List Host.Cell} {a : Nat} (h : ∀ c ∈ cs, c.1 ≠ a) : cellAt cs a = none := by
  unfold cellAt
  rw [List.find?_eq_none.mpr fun c mem => by simpa using h c mem]
  rfl

theorem cellAt_cons (c : Host.Cell) (cs : List Host.Cell) (a : Nat) : cellAt (c :: cs) a = if c.1 = a then some c.2 else cellAt cs a := by
  unfold cellAt
  by_cases e : c.1 = a <;> simp [e]

/-- The bytes listed around a stretch are those there were outside it. -/
theorem cellAt_around (cs mid : List Host.Cell) {lo hi : Nat} (le : lo ≤ hi) (a : Nat) (within : ∀ c ∈ mid, lo ≤ c.1 ∧ c.1 < hi) :
    cellAt (cs.filter (fun c => c.1 < lo) ++ mid ++ cs.filter (fun c => hi ≤ c.1)) a
      = if lo ≤ a ∧ a < hi then cellAt mid a else cellAt cs a := by
  have off : ∀ g : Host.Cell → Bool, (∀ c : Host.Cell, c.1 = a → g c = false) → cellAt (cs.filter g) a = none := fun g no =>
    cellAt_none fun c mem e => by
      have kept := List.of_mem_filter mem
      rw [no c e] at kept
      cases kept
  have on : ∀ g : Host.Cell → Bool, (∀ c : Host.Cell, c.1 = a → g c = true) → cellAt (cs.filter g) a = cellAt cs a := fun g yes =>
    cellAt_filter cs g a fun c _ e => yes c e
  rw [cellAt_append, cellAt_append]
  by_cases inside : lo ≤ a ∧ a < hi
  · rw [if_pos inside, off _ fun c e => by simp; omega, off _ fun c e => by simp; omega, Option.none_or, Option.or_none]
  · have outside : cellAt mid a = none := cellAt_none fun c mem e => by
      have := within c mem
      omega
    rw [if_neg inside, outside, Option.or_none]
    by_cases low : a < lo
    · rw [on _ fun c e => by simp; omega, off _ fun c e => by simp; omega, Option.or_none]
    · rw [off _ fun c e => by simp; omega, on _ fun c e => by simp; omega, Option.none_or]

theorem cellAt_cellsFrom (bs : List Byte) (lo a : Nat) (h : lo ≤ a) : (cellAt (cellsFrom lo bs) a).getD erasedByte = bs.getD (a - lo) erasedByte := by
  induction bs generalizing lo with
  | nil => simp [cellsFrom, cellAt]
  | cons b rest ih =>
    have tail : lo = a → cellAt (cellsFrom (lo + 1) rest) a = none := fun e => cellAt_none fun c mem same => by
      have := ((cellsFrom_rises rest (lo + 1)).1 c mem).1
      omega
    by_cases e : lo = a
    · subst e
      unfold cellsFrom
      split
      · rename_i blank
        rw [tail rfl, blank, Nat.sub_self]
        rfl
      · rw [cellAt_cons, if_pos rfl, Nat.sub_self]
        rfl
    · have step : (cellAt (cellsFrom lo (b :: rest)) a).getD erasedByte = (cellAt (cellsFrom (lo + 1) rest) a).getD erasedByte := by
        rw [cellsFrom]
        split
        · rfl
        · rw [cellAt_cons, if_neg e]
      rw [step, ih (lo + 1) (by omega), show a - lo = (a - (lo + 1)) + 1 by omega, List.getD_cons_succ]

/-- Work on a stretch of the array that leaves cells within it and no undefined content but its own. -/
theorem Store.read_worked (st : Store) {lo hi : Nat} (le : lo ≤ hi) (mid : List Host.Cell) (within : ∀ c ∈ mid, lo ≤ c.1 ∧ c.1 < hi) (a : Nat) :
    ({ st with cells := st.cells.filter (fun c => c.1 < lo) ++ mid ++ st.cells.filter (fun c => hi ≤ c.1)
               spoiled := areasOutside st.spoiled lo hi } : Store).read a
      = if lo ≤ a ∧ a < hi then (cellAt mid a).getD erasedByte else st.read a := by
  rw [Store.read_eq, Store.read_eq]
  dsimp only
  rw [drawIn_areasOutside st.spoiled le, cellAt_around st.cells mid le a within]
  by_cases inside : lo ≤ a ∧ a < hi
  · simp only [if_pos inside]
  · simp only [if_neg inside]

theorem Store.read_program (st : Store) (lo : Nat) (bs : List Byte) (a : Nat) :
    (st.program lo bs).read a = if lo ≤ a then bs.getD (a - lo) (st.read a) else st.read a := by
  have worked := st.read_worked (Nat.le_add_right lo bs.length) (cellsFrom lo bs)
    (fun c mem => ⟨((cellsFrom_rises bs lo).1 c mem).1, ((cellsFrom_rises bs lo).1 c mem).2.1⟩) a
  rw [Store.program, worked]
  by_cases low : lo ≤ a
  · rw [if_pos low]
    by_cases inside : a < lo + bs.length
    · rw [if_pos ⟨low, inside⟩, cellAt_cellsFrom bs lo a low, List.getD_eq_getElem _ _ (by omega), List.getD_eq_getElem _ _ (by omega)]
    · rw [if_neg (by omega), List.getD_eq_default _ _ (by omega)]
  · rw [if_neg low, if_neg (by omega)]

theorem Store.read_eraseSector (st : Store) (n a : Nat) :
    (st.eraseSector n).read a = if n * 65536 ≤ a ∧ a < n * 65536 + 65536 then 0xFF else st.read a := by
  have worked := st.read_worked (Nat.le_add_right (sectorBase n) Config.sectorBytes) [] (fun c mem => nomatch mem) a
  rw [List.append_nil] at worked
  exact worked

section
variable (st : Store) (lo n a : Nat) (pos : 0 < n) (inside : lo + n ≤ 33554432)
include pos inside

theorem Store.cellAt_spoil : cellAt (st.spoil lo n).cells a = if lo ≤ a ∧ a < lo + n then none else cellAt st.cells a := by
  have cells := cellAt_around st.cells [] (Nat.le_add_right lo n) a (fun c mem => nomatch mem)
  rw [List.append_nil] at cells
  rw [Store.spoil, if_pos ⟨pos, inside⟩]
  exact cells

theorem Store.drawIn_spoil :
    drawIn (st.spoil lo n).spoiled a = if lo ≤ a ∧ a < lo + n then some st.draws else drawIn st.spoiled a := by
  have rest := drawIn_areasOutside st.spoiled (Nat.le_add_right lo n) a
  have apart : ∀ y ∈ areasOutside st.spoiled lo (lo + n), y.lo ≤ a ∧ a < y.hi → y.hi ≤ lo ∨ lo + n ≤ y.lo := fun y mem holds => by
    obtain ⟨x, -, piece⟩ := List.mem_flatMap.mp mem
    unfold Area.outside Area.meets at piece
    split at piece
    · rcases List.mem_append.mp piece with piece | piece <;> split at piece <;> simp only [List.mem_singleton, List.not_mem_nil] at piece
      · subst piece; exact .inl le_rfl
      · subst piece; exact .inr le_rfl
    · rename_i no
      rw [List.mem_singleton.mp piece] at holds ⊢
      simp only [Bool.and_eq_true, decide_eq_true_eq] at no
      omega
  have notBelow : ¬a < lo → drawIn ((areasOutside st.spoiled lo (lo + n)).filter (fun x => x.hi ≤ lo)) a = none := fun no =>
    drawIn_none fun y mem => by
      have : y.hi ≤ lo := by simpa using (List.mem_filter.mp mem).2
      omega
  have notAbove : a < lo + n → drawIn ((areasOutside st.spoiled lo (lo + n)).filter (fun x => lo + n ≤ x.lo)) a = none := fun no =>
    drawIn_none fun y mem => by
      have : lo + n ≤ y.lo := by simpa using (List.mem_filter.mp mem).2
      omega
  rw [Store.spoil, if_pos ⟨pos, inside⟩]
  dsimp only
  rw [drawIn_append, drawIn_append, drawIn_singleton]
  dsimp only
  by_cases within : lo ≤ a ∧ a < lo + n
  · simp only [if_pos within, notBelow (by omega), Option.none_or, Option.some_or]
  · rw [if_neg within] at rest
    simp only [if_neg within, Option.or_none]
    by_cases low : a < lo
    · rw [notAbove (by omega), Option.or_none, drawIn_filter, rest]
      intro y mem holds
      have := apart y mem holds
      simp
      omega
    · rw [notBelow low, Option.none_or, drawIn_filter, rest]
      intro y mem holds
      have := apart y mem holds
      simp
      omega

theorem Store.read_spoil :
    (st.spoil lo n).read a = if lo ≤ a ∧ a < lo + n then Config.freeByte st.draws st.powerOns a else st.read a := by
  have powerOns : (st.spoil lo n).powerOns = st.powerOns := by rw [Store.spoil, if_pos ⟨pos, inside⟩]
  rw [Store.read_eq, Store.read_eq, st.cellAt_spoil lo n a pos inside, st.drawIn_spoil lo n a pos inside, powerOns]
  by_cases within : lo ≤ a ∧ a < lo + n
  · simp only [if_pos within]
  · simp only [if_neg within]

end

/-- Settles O52: each kind of work decides the bytes of its own stretch and leaves every other byte. -/
theorem arrayReadsWhatWasWritten : Obligations.ArrayReadsWhatWasWritten := fun st a =>
  ⟨fun lo bs => st.read_program lo bs a, fun n => st.read_eraseSector n a, fun lo n => st.read_spoil lo n a⟩

end Sys2Proof.Machine
end

section
/-! The array under each command: work lies in one sector, that of the journal or of the STAGING slot of the operation in flight (R70,
R94, R95, R97). -/

namespace Sys2Proof.Machine

/-! ### Work in one sector -/

/-- No byte outside a sector reads otherwise. -/
def OnlyIn (st st' : Store) (n : Nat) : Prop := ∀ a, ¬(n * 65536 ≤ a ∧ a < n * 65536 + 65536) → st'.read a = st.read a

section
variable (st : Store)

theorem Store.read_spoil_other {lo n a : Nat} (h : ¬(lo ≤ a ∧ a < lo + n)) : (st.spoil lo n).read a = st.read a := by
  by_cases inside : 0 < n ∧ lo + n ≤ Config.arrayBytes
  · rw [st.read_spoil lo n a inside.1 inside.2, if_neg h]
  · rw [Store.spoil, if_neg inside]

theorem Store.read_program_other {lo : Nat} {bs : List Byte} {a : Nat} (h : ¬(lo ≤ a ∧ a < lo + bs.length)) :
    (st.program lo bs).read a = st.read a := by
  rw [Store.read_program]
  split
  · rw [List.getD_eq_default _ _ (by omega)]
  · rfl

theorem OnlyIn.eraseSector (n : Nat) : OnlyIn st (st.eraseSector n) n := fun a h => by
  rw [Store.read_eraseSector, if_neg h]

theorem OnlyIn.spoilSector (n : Nat) : OnlyIn st (st.spoilSector n) n := fun _ h => st.read_spoil_other h

/-- Bytes within a sector lie in no other. -/
theorem OnlyIn.of_stretch {st' : Store} {n lo m : Nat} (low : n * 65536 ≤ lo) (high : lo + m ≤ n * 65536 + 65536)
    (other : ∀ a, ¬(lo ≤ a ∧ a < lo + m) → st'.read a = st.read a) : OnlyIn st st' n := fun a outside =>
  other a (by omega)

theorem pageBase_inside {n pg m : Nat} (inside : pg < 256) (short : m ≤ 256) :
    n * 65536 ≤ pageBase n pg ∧ pageBase n pg + m ≤ n * 65536 + 65536 := by
  simp only [pageBase, sectorBase, Config.sectorBytes, Config.pageBytes]
  omega

theorem positionBase_inside {j : JSector} {k : Nat} (inside : k < Config.positions) :
    jsectorNumber j * 65536 ≤ positionBase j k ∧ positionBase j k + 32 ≤ jsectorNumber j * 65536 + 65536 := by
  simp only [positionBase, sectorBase, Config.sectorBytes, Config.positionBytes, Config.positions] at inside ⊢
  omega

theorem OnlyIn.spoilPage {n pg : Nat} (inside : pg < 256) : OnlyIn st (st.spoilPage n pg) n :=
  .of_stretch st (pageBase_inside inside le_rfl).1 (pageBase_inside inside le_rfl).2 fun _ h => st.read_spoil_other h

theorem OnlyIn.programPage {n pg : Nat} {bs : List Byte} (inside : pg < 256) (short : bs.length ≤ 256) :
    OnlyIn st (st.program (pageBase n pg) bs) n :=
  .of_stretch st (pageBase_inside inside short).1 (pageBase_inside inside short).2 fun _ h => st.read_program_other h

theorem OnlyIn.entry {j : JSector} {k : Nat} (e : JEntry) (inside : k < Config.positions) :
    OnlyIn st (st.program (positionBase j k) (entryBytes e)) (jsectorNumber j) :=
  .of_stretch st (positionBase_inside inside).1 (positionBase_inside inside).2 fun _ h =>
    st.read_program_other (by rwa [entryBytes_length])

theorem OnlyIn.spoilPosition {j : JSector} {k : Nat} (inside : k < Config.positions) :
    OnlyIn st (st.spoilPosition j k) (jsectorNumber j) :=
  .of_stretch st (positionBase_inside inside).1 (positionBase_inside inside).2 fun _ h => st.read_spoil_other h

end

/-! ### The work of each event -/

/-- The array is as before, or other than before in a journal sector or in the one that an ERASE or PROGRAM works on. -/
def State.worksIn (s : State) (st : Store) : Prop :=
  st = s.store ∨ ∃ n, OnlyIn s.store st n ∧ (n = 0 ∨ n = 256 ∨ ∃ e ∈ s.engine, n ∈ e.workSector)

theorem State.worksIn.journal {s : State} {st : Store} {j : JSector} (h : OnlyIn s.store st (jsectorNumber j)) : s.worksIn st :=
  .inr ⟨_, h, by cases j <;> simp [jsectorNumber]⟩

section
variable {s t : State} {b : Bool}

/-- Where a sector under erase lies (R94, R117, R133). -/
theorem State.placeLaw.erasing {e : InFlight} {n : Nat} (place : s.placeLaw e) (busy : s.engine = some e) (phase : e.phase = .erasing n) :
    n = 0 ∨ n = 256 ∨ ∃ e ∈ s.engine, n ∈ e.workSector := by
  unfold State.placeLaw at place
  rw [phase] at place
  rcases place.2 with ⟨-, j, -, rfl⟩ | ⟨-, -, rfl | ⟨rfl, -⟩⟩ | ⟨kind, -⟩
  · cases j.sector <;> simp [jsectorNumber, JSector.other]
  · exact .inl rfl
  · exact .inr (.inl rfl)
  · exact .inr (.inr ⟨e, busy, by simp [InFlight.workSector, phase, kind]⟩)

theorem State.placeLaw.programming {e : InFlight} {n pg : Nat} (place : s.placeLaw e) (phase : e.phase = .programming n pg) :
    pg < 256 ∧ e.op.data.length ≤ 256 := by
  unfold State.placeLaw at place
  rw [phase] at place
  exact place.2.2.2

/-- An entry under program stands within its sector (R114, R118). -/
theorem State.placeLaw.position {e : InFlight} {j : JSector} {k : Nat} (place : s.placeLaw e) (phase : e.phase = .journaling j)
    (position : s.programPosition e = some k) : k < Config.positions := by
  unfold State.placeLaw at place
  rw [phase] at place
  unfold State.programPosition at position
  cases own : e.own with
  | none =>
    simp only [own] at place position
    obtain ⟨i, journal, -, inside, -⟩ := place
    rw [Option.mem_def] at journal
    rw [journal] at position
    cases position
    exact inside
  | some o =>
    simp only [own] at place position
    obtain ⟨pos, tries, -, written, -⟩ := place
    cases position
    simp only [Config.maxTries, Config.positions] at pos tries ⊢
    omega

theorem State.abort_worksIn (place : ∀ e ∈ s.engine, s.placeLaw e) (cut : Cut) : s.worksIn (s.abort cut).store := by
  unfold State.abort
  split
  · exact .inl rfl
  · rename_i e busy
    have place := place e busy
    split
    · exact .inl rfl
    · exact .inl rfl
    · rename_i n phase
      dsimp only
      exact .inr ⟨n, .spoilSector _ n, place.erasing busy phase⟩
    · rename_i n pg phase
      exact .inr ⟨n, .spoilPage _ (place.programming phase).1, .inr (.inr ⟨e, busy, by simp [InFlight.workSector, phase]⟩)⟩
    · rename_i j phase
      split
      · exact .inl rfl
      · split
        · exact .inl rfl
        · rename_i k position
          exact .journal (.spoilPosition _ (place.position phase position))
    · exact .inl rfl

theorem Event.worksIn (h : Event s b t) (place : ∀ e ∈ s.engine, s.placeLaw e) : s.worksIn t.store := by
  have fin : ∀ (u : State) st body, s.worksIn u.store → s.worksIn (u.finish st body).store := fun u st body h => by
    rw [(u.finish_keeps st body).1]
    exact h
  have same : s.worksIn s.store := .inl rfl
  cases h with
  | finished | beginLost | rowWritten => exact fin _ _ _ same
  | eraseEnds e n i m store st body busy kind phase inside worked =>
    refine fin _ _ _ ?_
    rw [(State.setMapEntry_keeps ..).1]
    refine .inr ⟨n, ?_, (place e busy).erasing busy phase⟩
    dsimp only
    rcases worked with worked | worked <;> rw [worked]
    · exact .eraseSector _ n
    · exact .spoilSector _ n
  | programEnds e n pg i m store st body busy kind phase inside worked =>
    refine fin _ _ _ ?_
    rw [(State.setMapEntry_keeps ..).1]
    obtain ⟨page, short⟩ := (place e busy).programming phase
    refine .inr ⟨n, ?_, .inr (.inr ⟨e, busy, by simp [InFlight.workSector, phase]⟩)⟩
    rcases worked with rfl | rfl
    · exact .programPage _ page short
    · exact .spoilPage _ page
  | verified e v x sl len crc u busy kind phase staged length begins =>
    obtain ⟨j, -, -, rfl⟩ := beginRecord_runs begins
    exact same
  | entry k e en j st body under inside =>
    refine fin _ _ _ ?_
    rw [(entryEffect_keeps ..).1]
    unfold State.journalled
    rw [(State.compactionCheck_keeps _).1]
    exact .journal (.entry _ en inside)
  | retried e js j busy phase own journal tries inside => exact .journal (.spoilPosition _ (Nat.lt_of_succ_lt inside))
  | lost e js j busy phase own journal inside =>
    refine fin _ _ _ ?_
    rw [(clearDeleting_keeps ..).1]
    exact .journal (.spoilPosition _ inside)
  | ownRetried e js o busy phase own tries inside => exact .journal (.spoilPosition _ (Nat.lt_of_succ_lt inside))
  | ownLost e js o m st body busy phase own inside => exact fin _ _ _ (.journal (.spoilPosition _ inside))
  | compactErased e j n busy kind journal phase => exact .inr ⟨n, .eraseSector _ n, (place e busy).erasing busy phase⟩
  | compactEraseFails e n st body busy kind phase =>
    refine fin _ _ _ ?_
    dsimp only
    exact .inr ⟨n, .spoilSector _ n, (place e busy).erasing busy phase⟩
  | ownAdvances e js en o item rest busy kind phase entry own todo inside => exact .journal (.entry _ en inside)
  | switched e js en o m st body busy kind phase entry own last inside => exact fin _ _ _ (.journal (.entry _ en inside))
  | formatErased e n busy kind phase =>
    have erased : s.worksIn (s.store.eraseSector n) := .inr ⟨n, .eraseSector _ n, (place e busy).erasing busy phase⟩
    unfold Machine.formatErased
    dsimp only
    split <;> exact erased
  | formatEraseFails e n st body busy kind phase =>
    refine fin _ _ _ ?_
    dsimp only
    exact .inr ⟨n, .spoilSector _ n, (place e busy).erasing busy phase⟩
  | pinenRises =>
    rw [(Moves.pinenRises _).store_pending.1, s.pinenUp_keeps.1]
    exact same
  | portCleared p =>
    obtain ⟨cs, e⟩ := s.portCleared_frame p
    rw [e]
    exact same
  | resetRises cut | powerFalls cut => exact State.abort_worksIn place cut
  | replayed =>
    rw [(State.compactionCheck_keeps _).1]
    exact same
  | _ => exact same

/-- After a command other than POWER_ON the array is as its one event has left it. -/
theorem Reaches.worksIn (h : Reaches s b t) (place : ∀ e ∈ s.engine, s.placeLaw e) : s.worksIn t.store :=
  h.keeps (P := fun t => s.worksIn t.store) (.inl rfl) (fun _ _ e => e.worksIn place)
    (fun _ _ same m => by obtain ⟨_, _, _, _, _, _, _, rfl⟩ := m.frame; exact same)
    (fun _ _ same a => by obtain ⟨_, _, _, rfl⟩ := a.frame; exact same)
    (fun _ _ same q => by obtain ⟨_, rfl⟩ := q.frame; exact same)
    (fun _ _ same m => by obtain ⟨_, _, _, _, _, _, _, _, _, rfl, -⟩ := m.frame; exact same)

/-! ### Slots and sectors -/

/-- A slot of a volume holds a sector. -/
def Volume.spans (x : Volume) (sl : Slot) (n : Nat) : Prop := x.base sl ≤ n ∧ n < x.base sl + x.size

/-- R14: a sector lies in one slot of one volume at most. -/
theorem slot_of_sector {d : Directory} (apart : placedApart d) (kept : ∀ v : Vol, ∀ x ∈ d[v], x.kept) {v w : Vol} {x y : Volume} {sl sm : Slot}
    {n : Nat} (used : d[v] = some x) (used' : d[w] = some y) (spans : x.spans sl n) (spans' : y.spans sm n) : v = w ∧ sl = sm := by
  obtain ⟨-, -, -, ⟨-, topA⟩, ⟨lowB, -⟩, -⟩ := kept v x used
  obtain ⟨-, -, -, ⟨-, topA'⟩, ⟨lowB', -⟩, -⟩ := kept w y used'
  have plane : sl = sm := by
    cases sl <;> cases sm <;> simp only [Volume.spans, Volume.base] at spans spans' <;> first | rfl | omega
  refine ⟨?_, plane⟩
  by_contra ne
  obtain ⟨a, b⟩ := apart v w ne x used y used'
  subst plane
  cases sl <;> simp only [Volume.spans, Volume.base] at spans spans' <;> omega

/-- No slot lies in a journal sector (R1, R4). -/
theorem Volume.kept.notJournal {x : Volume} (kept : x.kept) {sl : Slot} {n : Nat} (spans : x.spans sl n) : n ≠ 0 ∧ n ≠ 256 := by
  obtain ⟨-, -, -, ⟨lowA, topA⟩, ⟨lowB, topB⟩, -⟩ := kept
  cases sl <;> simp only [Volume.spans, Volume.base] at spans <;> omega

/-- R70: the slot that the work of an ERASE or PROGRAM lies in is STAGING, and of the operation's volume. -/
theorem State.stagingLaw.slot (staging : s.stagingLaw) (journal : s.journalLaw) {e : InFlight} {n : Nat} (busy : s.engine = some e)
    (work : e.workSector = some n) {v : Vol} {x : Volume} {sl : Slot} (used : s.vols[v] = some x) (spans : x.spans sl n) :
    e.op.vol = some v ∧ (x.slot sl).state = .staging := by
  obtain ⟨⟨apart, kept⟩, -⟩ := journal
  obtain ⟨c, -, cl, -, vol, y, used', sm, slot, spans'⟩ := staging e busy n work
  obtain ⟨rfl, rfl⟩ := slot_of_sector apart kept used used' spans spans'
  rw [show s.vols[cl.vol] = some y from used'] at used
  cases used
  exact ⟨vol, Volume.slotIn_some slot⟩

/-- A slot that is not STAGING reads as before. -/
theorem State.worksIn.read {st : Store} (works : s.worksIn st) (journal : s.journalLaw) (staging : s.stagingLaw) {v : Vol} {x : Volume} {sl : Slot}
    {a : Nat} (used : s.vols[v] = some x) (other : (x.slot sl).state ≠ .staging) (low : x.base sl * 65536 ≤ a)
    (high : a < (x.base sl + x.size) * 65536) : st.read a = s.store.read a := by
  rcases works with rfl | ⟨n, only, place⟩
  · rfl
  · refine only a fun inside => ?_
    have spans : x.spans sl n := by
      unfold Volume.spans
      omega
    obtain ⟨zero, half⟩ := (journal.1.2 v x used).notJournal spans
    rcases place with rfl | rfl | ⟨e, busy, work⟩
    · exact zero rfl
    · exact half rfl
    · exact other (staging.slot journal busy work used spans).2

/-- A slot that is STAGING in the running part is so in the journal (R128). -/
theorem staging_of_follows {d e : Directory} (follows : followsJournal d e) {v : Vol} {x : Volume} {sl : Slot} (used : d[v] = some x)
    (staging : (x.slot sl).state = .staging) : ∃ y ∈ e[v], (y.slot sl).state = .staging := by
  obtain ⟨some, each⟩ := follows v
  obtain ⟨y, used'⟩ := Option.isSome_iff_exists.mp (some.symm.trans (Option.isSome_iff_exists.mpr ⟨x, used⟩))
  obtain ⟨a, b, -⟩ := each x used y used'
  refine ⟨y, used', ?_⟩
  have slot : (x.slot sl).follows (y.slot sl) := by
    cases sl
    · exact a
    · exact b
  rcases slot with same | ⟨-, stale⟩
  · rwa [same] at staging
  · rw [stale] at staging
    cases staging

end

/-- Settles O58: the laws of records, slots, claims and views, the binding of staging operations, and where their work lies. -/
theorem directoryLawsAreKept : Obligations.DirectoryLawsAreKept := by
  refine ⟨fun c s t modes _ sound records guards claimed viewed slots next => ?_, fun c s t modes unique bind staging next => ?_,
    fun s e n viewed journal staging busy work v x sl used low high => ?_,
    fun c s t _ journal staging other next v x sl a used notStaging low high => ?_⟩
  · have law : t.Directed := exec_keeps next (.of_idle (.of_empty (State.slotLaw_of_empty rfl) rfl rfl) rfl) fun reached =>
      reached.directed modes sound ⟨records, guards, claimed, viewed, slots⟩
    exact ⟨law.records, law.guards, law.lawful.claimed, law.lawful.viewed, law.lawful.slots⟩
  · refine exec_keeps (P := fun t => t.bindLaw ∧ t.stagingLaw) next ?_ fun reached => reached.bindLaws modes unique bind staging
    exact ⟨bind.step (.of_empty rfl) (.of_idle rfl), staging.step (.of_idle rfl)⟩
  · obtain ⟨vol, state⟩ := staging.slot journal busy work used ⟨low, high⟩
    refine ⟨vol, state, State.viewCount_zero.mpr fun p h w mem both => ?_, fun j current => ?_⟩
    · obtain ⟨y, used', backs⟩ := viewed p h w mem
      obtain ⟨rfl, rfl⟩ := both
      rw [show s.vols[w.vol] = some y from used'] at used
      cases used
      exact Volume.backs_notStaging backs state
    · obtain ⟨r, -, -, follows⟩ := journal.2.2.2.2.1 j current
      exact staging_of_follows follows used state
  · exact ((exec_reaches next other).worksIn journal.2.2.2.2.2.1).read journal staging used notStaging low high

end Sys2Proof.Machine
end

section
/-! Taking a request (R51, R60, R130, R162 to R165, R179): which frames are REJECTED or FULL, what the mode and the parameter count
refuse, and what joins a FIFO. -/

namespace Sys2Proof.Machine

/-- Settles O1: `step` is defined so. -/
theorem stepRunsTheFrontCommand : Obligations.StepRunsTheFrontCommand := fun _ _ _ => rfl

/-! ### The mode and the parameter count (R130, R179) -/

section
variable {s : State} {c : Instr} {k : Kind} {f : Submit} (hc : c.requestOf = some (k, f)) (h : s.takes k f)
include hc h

/-- A request that the mode refuses makes no read. -/
theorem exec_modeRefused {st : Status} (refused : modeRefusal k s.mode = some st) :
    exec c s = .next ((s.taken k f).push f.port (responseTo f k st [])) := by
  have kind : modeRefusal (requestOfFrame k f).kind (s.taken k f).mode = some st := by rw [State.taken_mode]; exact refused
  have noRead : readsOutside (requestOfFrame k f) f.port (s.taken k f) = false := by
    simp only [readsOutside, readOf, kind, Option.isSome_some, true_or, if_true]
  rw [exec_request s c k f hc, submitFrame_takes s k f h, noRead, takeRequest, kind]
  rfl

theorem exec_badCount (passes : modeRefusal k s.mode = none) (bad : badCount (requestOfFrame k f) = true) :
    exec c s = .next ((s.taken k f).push f.port (responseTo f k .badRequest [])) := by
  have kind : modeRefusal (requestOfFrame k f).kind (s.taken k f).mode = none := by rw [State.taken_mode]; exact passes
  have noRead : readsOutside (requestOfFrame k f) f.port (s.taken k f) = false := by
    simp only [readsOutside, readOf, bad, or_true, if_true]
  rw [exec_request s c k f hc, submitFrame_takes s k f h, noRead, takeRequest, kind]
  dsimp only
  rw [if_pos bad]
  rfl

/-- A request of a kind that reads no array goes on to the checks of its kind. -/
theorem exec_takesKind (passes : modeRefusal k s.mode = none)
    (count : if k = .program then 6 ≤ f.params.length else f.params.length = paramSize k) (notRead : k ≠ .read)
    (notStaged : k ≠ .readStaged) : exec c s = .next (takeKind (requestOfFrame k f) f.port (s.taken k f)) := by
  rw [exec_takes s c k f hc h notRead notStaged, takeRequest_passes s k f passes count]

end

/-- Settles O9: the mode check is the first after TAKEN, and the parameter count the second. -/
theorem modeAndCountRefusals : Obligations.ModeAndCountRefusals := by
  intro c k f s hc takes
  refine ⟨fun mode other => ?_, fun mode kind => ?_, fun mode kind => ?_, fun passes bad => ?_⟩
  · refine exec_modeRefused hc takes ?_
    rw [mode]
    revert other
    cases k <;> decide
  · refine exec_modeRefused hc takes ?_
    have := takes.2.2.1
    rw [kind]
    revert mode this
    cases s.mode <;> decide
  · refine exec_modeRefused hc takes ?_
    rw [mode]
    revert kind
    cases k <;> decide
  · refine exec_badCount hc takes passes ?_
    unfold badCount
    by_cases program : k = .program
    · subst program
      exact decide_eq_true bad
    · rw [if_neg program] at bad
      rw [if_neg (show (requestOfFrame k f).kind ≠ .program from program)]
      exact decide_eq_true bad

/-! ### The lease (R51) -/

theorem State.taken_reloads (s : State) {k : Kind} {f : Submit} {v : Vol} {c : ClaimIx} {x : Claim} (names : namesVolume k = true)
    (named : f.volume = volByte v) (holds : s.heldClaim f.port v = some c) (entry : s.claims[c] = some x) :
    s.taken k f = { (s.framed f).setOutcome f.port .taken with
      claims := s.claims.set c (some { x with lease := s.values.lease }) } := by
  have claims : ((s.framed f).setOutcome f.port .taken).claims = s.claims := rfl
  have holds' : ((s.framed f).setOutcome f.port .taken).heldClaim f.port v = some c := holds
  simp only [State.taken, State.reload, names, if_true, named, volIndex_volByte, holds', State.onClaim, State.setClaim]
  rw [claims, entry]
  rfl

/-- Settles O10: the reload names one claim, that which the port holds on the volume of the frame. -/
theorem takingReloadsTheLease : Obligations.TakingReloadsTheLease := by
  intro s k f
  refine ⟨fun v c x other named holds entry => ?_, fun no => ?_⟩
  · have names : namesVolume k = true := by
      revert other
      cases k <;> decide
    rw [s.taken_reloads names named holds entry]
  · have kept : ((s.framed f).setOutcome f.port .taken).reload f.port k f.volume = (s.framed f).setOutcome f.port .taken := by
      unfold State.reload
      rcases no with kind | high | ⟨v, named, unclaimed⟩
      · rw [if_neg]
        revert kind
        cases k <;> decide
      · rw [volIndex_none _ high, ite_self]
      · have unclaimed' : ((s.framed f).setOutcome f.port .taken).heldClaim f.port v = none := unclaimed
        simp only [named, volIndex_volByte, unclaimed', ite_self]
    rw [State.taken, kept]
    rfl

/-! ### Operations that join a FIFO (R86) -/

section
variable {s : State} {k : Kind} {f : Submit}

/-- An administrative request is taken as one (R15). -/
theorem takeKind_admin {r : Request} (p : Port) (t : State) (kind : r.kind ∈ [Kind.createVolume, .deleteVolume, .setAccess, .pin, .unpin]) :
    takeKind r p t = takeAdmin r p t := by
  simp only [List.mem_cons, List.not_mem_nil, or_false] at kind
  rcases kind with kind | kind | kind | kind | kind <;> simp only [takeKind, kind]

/-- A staging request is taken as one (R60). -/
theorem takeKind_staging {r : Request} (p : Port) (t : State) (kind : r.kind ∈ [Kind.beginStage, .erase, .program, .commit, .rollback]) :
    takeKind r p t = takeStaging r p t := by
  simp only [List.mem_cons, List.not_mem_nil, or_false] at kind
  rcases kind with kind | kind | kind | kind | kind <;> simp only [takeKind, kind]

theorem adminParams_kind {ps : List Byte} (h : adminParams k ps = true) : k ∈ [Kind.createVolume, .deleteVolume, .setAccess, .pin, .unpin] := by
  cases k with
  | createVolume | deleteVolume | setAccess | pin | unpin => decide
  | _ => cases h

theorem adminParams_iff {ps : List Byte} (kind : k ∈ [Kind.createVolume, .deleteVolume, .setAccess, .pin, .unpin]) :
    adminParams k ps = true ↔ ps.length = paramSize k ∧ badAdmin k ps = false := by
  cases k with
  | createVolume =>
    simp [adminParams, paramSize, badAdmin, badMask]
    simp only [createReaders, createWriters, createSize]
    omega
  | setAccess =>
    simp [adminParams, paramSize, badAdmin, badMask]
    simp only [accessReaders, accessWriters]
    omega
  | deleteVolume | pin | unpin => simp [adminParams, paramSize, badAdmin]
  | _ => exact absurd kind (by decide)

theorem stagingParams_kind {ps : List Byte} (h : stagingParams k ps = true) : k ∈ [Kind.beginStage, .erase, .program, .commit, .rollback] := by
  cases k with
  | beginStage | erase | program | commit | rollback => decide
  | _ => cases h

theorem stagingParams_iff {ps : List Byte} (kind : k ∈ [Kind.beginStage, .erase, .program, .commit, .rollback]) :
    stagingParams k ps = true ↔ (if k = .program then 6 ≤ ps.length else ps.length = paramSize k) ∧ badStaging k ps = false := by
  cases k with
  | beginStage | rollback | commit => simp [stagingParams, paramSize, badStaging]
  | erase =>
    simp [stagingParams, paramSize, badStaging]
    simp only [eraseSectorIx, implies_true]
  | program =>
    simp [stagingParams, badStaging, badLength]
    simp only [programOffset, programLength, programData, Config.pageBytes, List.length_drop]
    omega
  | _ => exact absurd kind (by decide)

theorem provisionParams_iff {ps : List Byte} : provisionParams ps = true ↔ ps.length = 4 ∧ badProvision ps = false := by
  simp [provisionParams, badProvision, badMask]
  simp only [provAdmin, provLease, provErase, provProgram, BitVec.toNat_eq, BitVec.toNat_ofNat]
  omega

/-- The operation record of an administrative request (R85). -/
def adminOp (k : Kind) (f : Submit) (v : Vol) : Op :=
  { tag := f.tag, kind := k, vol := some v, params := f.params, data := [], claim := none }

/-- The operation record of a FORMAT or a PROVISION (R85). -/
def plainOp (k : Kind) (f : Submit) : Op :=
  { tag := f.tag, kind := k, vol := none, params := f.params, data := [], claim := none }

/-- The operation record of a staging request, bound to its claim (R39, R85). -/
def stagingOp (k : Kind) (f : Submit) (v : Vol) (i : ClaimIx) : Op :=
  { tag := f.tag, kind := k, vol := some v, params := f.params, data := if k = .program then f.params.drop 6 else [], claim := some i }

variable {c : Instr} (hc : c.requestOf = some (k, f)) (h : s.takes k f)
include hc h

theorem exec_admin {v : Vol} (mode : s.mode = .normal) (admin : inMask s.values.admin f.port = true)
    (params : adminParams k f.params = true) (named : f.volume = volByte v) :
    exec c s = .next ((s.taken k f).enqueue f.port (adminOp k f v)) := by
  have kind := adminParams_kind params
  obtain ⟨count, good⟩ := (adminParams_iff kind).mp params
  have facts : modeRefusal k .normal = none ∧ k ≠ .program ∧ k ≠ .read ∧ k ≠ .readStaged := by
    revert kind
    cases k <;> decide
  obtain ⟨passes, program, notRead, notStaged⟩ := facts
  rw [exec_takesKind hc h (by rw [mode]; exact passes) (by rwa [if_neg program]) notRead notStaged]
  have taken : takeKind (requestOfFrame k f) f.port (s.taken k f) = takeAdmin (requestOfFrame k f) f.port (s.taken k f) :=
    takeKind_admin f.port _ kind
  have isAdmin : (s.taken k f).isAdmin f.port = true := by rw [State.isAdmin, State.taken_values]; exact admin
  have op : opOf (requestOfFrame k f) (some v) none = adminOp k f v := by
    simp [opOf, adminOp, requestOfFrame, program]
  have good' : badAdmin (requestOfFrame k f).kind (requestOfFrame k f).params = false := good
  rw [taken, takeAdmin, isAdmin, if_neg (by decide), show (requestOfFrame k f).volume = volByte v from named, volIndex_volByte]
  dsimp only
  rw [good', if_neg (by decide), op]

theorem exec_format (kind : k = .format) (mode : s.mode = .unformatted) (admin : inMask s.values.admin f.port = true)
    (params : f.params = []) : exec c s = .next ((s.taken k f).enqueue f.port (plainOp k f)) := by
  subst kind
  rw [exec_takesKind hc h (by rw [mode]; rfl) (by rw [params]; rfl) (by decide) (by decide)]
  have isAdmin : (s.taken .format f).isAdmin f.port = true := by rw [State.isAdmin, State.taken_values]; exact admin
  change Host.Outcome.next (takeFormat _ _ _) = _
  rw [takeFormat, isAdmin, if_neg (by decide)]
  rfl

theorem exec_provision (kind : k = .provision) (mode : s.mode = .unformatted ∨ s.mode = .normal)
    (params : provisionParams f.params = true) (blank : s.prov = .blank) :
    exec c s = .next ((s.taken k f).enqueue f.port (plainOp k f)) := by
  subst kind
  obtain ⟨count, good⟩ := provisionParams_iff.mp params
  rw [exec_takesKind hc h (by rcases mode with m | m <;> rw [m] <;> rfl) (by rw [count]; rfl) (by decide) (by decide)]
  change Host.Outcome.next (takeProvision _ _ _) = _
  rw [takeProvision, show badProvision (requestOfFrame .provision f).params = false from good, if_neg (by decide), State.taken_prov,
    if_neg (not_not.mpr blank)]
  rfl

/-- Past the parameter check a staging request is bound to the HELD claim of its port, or has none (R60). -/
theorem exec_staging {v : Vol} (mode : modeRefusal k s.mode = none) (params : stagingParams k f.params = true) (named : f.volume = volByte v) :
    exec c s = .next (match s.heldClaim f.port v with
      | none => (s.taken k f).push f.port (responseTo f k .notClaimed [])
      | some i => ((s.taken k f).onClaim i (fun x => { x with pending := x.pending + 1 })).enqueue f.port (stagingOp k f v i)) := by
  have kind := stagingParams_kind params
  obtain ⟨count, good⟩ := (stagingParams_iff kind).mp params
  have facts : k ≠ .read ∧ k ≠ .readStaged := by
    revert kind
    cases k <;> decide
  rw [exec_takesKind hc h mode count facts.1 facts.2]
  have taken : takeKind (requestOfFrame k f) f.port (s.taken k f) = takeStaging (requestOfFrame k f) f.port (s.taken k f) :=
    takeKind_staging f.port _ kind
  have good' : badStaging (requestOfFrame k f).kind (requestOfFrame k f).params = false := good
  rw [taken, takeStaging, show (requestOfFrame k f).volume = volByte v from named, volIndex_volByte]
  dsimp only
  rw [good', if_neg (by decide), State.taken_heldClaim]
  cases s.heldClaim f.port v <;> rfl

end

theorem State.enqueue_busy (s : State) (p : Port) (o : Op) (busy : s.engine.isSome = true) :
    s.enqueue p o = s.setFifo p (s.fifos[p] ++ [o]) := by
  rw [State.enqueue, State.pick_busy]
  exact busy

/-- Settles O13: a busy engine picks nothing, so the record stays at the tail of its FIFO. -/
theorem adminRequestsJoinTheFifo : Obligations.AdminRequestsJoinTheFifo := by
  intro c k f s hc takes busy
  have queued : ∀ o, (s.taken k f).enqueue f.port o = (s.taken k f).setFifo f.port (s.fifos[f.port] ++ [o]) := fun o => by
    rw [State.enqueue_busy _ _ _ (by rwa [State.taken_engine]), State.taken_fifos]
  refine ⟨fun v mode admin params named => ?_, fun kind mode admin params => ?_, fun kind mode params blank => ?_⟩
  · rw [exec_admin hc takes mode admin params named, queued]
    rfl
  · rw [exec_format hc takes kind mode admin params, queued, plainOp, params]
  · rw [exec_provision hc takes kind mode params blank, queued]
    rfl

/-- Settles O14: the record is bound to the claim before it joins its FIFO. -/
theorem stagingRequestsJoinTheFifo : Obligations.StagingRequestsJoinTheFifo := by
  intro c k f s v i hc takes busy mode named params holds
  have passes : modeRefusal k s.mode = none := by
    have kind := stagingParams_kind params
    rw [mode]
    revert kind
    cases k <;> decide
  rw [exec_staging hc takes passes params named, holds]
  dsimp only
  rw [State.enqueue_busy _ _ _ (by rw [State.onClaim_engine, State.taken_engine]; exact busy), State.onClaim_fifos, State.taken_fifos]
  rfl

/-- Settles O15: the checks of `takeAdmin`, `takeFormat`, `takeProvision` and `takeStaging`, in their order. -/
theorem engineRequestsRefusedAtTaking : Obligations.EngineRequestsRefusedAtTaking := by
  intro c k f s st hc takes mode count refused
  have read : k ≠ .read ∧ k ≠ .readStaged := by
    rcases refused with ⟨kind, -⟩ | ⟨kind, -⟩ | ⟨kind, -⟩ | ⟨kind, -⟩ | ⟨kind, -⟩ | ⟨kind, -⟩ <;> revert kind <;> cases k <;> decide
  have volume : (requestOfFrame k f).volume = f.volume := rfl
  have kindEq : (requestOfFrame k f).kind = k := rfl
  have paramsEq : (requestOfFrame k f).params = f.params := rfl
  have isAdmin : (s.taken k f).isAdmin f.port = inMask s.values.admin f.port := by rw [State.isAdmin, State.taken_values]
  rcases refused with ⟨kind, admin, rfl⟩ | ⟨kind, admin, bad, rfl⟩ | ⟨rfl, bad, rfl⟩ | ⟨rfl, params, prov, rfl⟩ | ⟨kind, bad, rfl⟩
    | ⟨kind, params, ⟨v, named, unclaimed⟩, rfl⟩
  · rw [exec_takesKind hc takes mode count read.1 read.2]
    have taken : takeKind (requestOfFrame k f) f.port (s.taken k f) = takeAdmin (requestOfFrame k f) f.port (s.taken k f)
        ∨ takeKind (requestOfFrame k f) f.port (s.taken k f) = takeFormat (requestOfFrame k f) f.port (s.taken k f) := by
      change k ∈ [Kind.createVolume, .deleteVolume, .setAccess, .pin, .unpin] ++ [.format] at kind
      rcases List.mem_append.mp kind with kind | kind
      · exact .inl (takeKind_admin f.port _ kind)
      · obtain rfl := List.mem_singleton.mp kind
        exact .inr rfl
    rcases taken with taken | taken
    · rw [taken, takeAdmin, isAdmin, if_pos admin]; rfl
    · rw [taken, takeFormat, isAdmin, if_pos admin]; rfl
  · rw [exec_takesKind hc takes mode count read.1 read.2]
    have taken : takeKind (requestOfFrame k f) f.port (s.taken k f) = takeAdmin (requestOfFrame k f) f.port (s.taken k f) :=
      takeKind_admin f.port _ kind
    rw [taken, takeAdmin, isAdmin, admin, if_neg (by decide), volume, kindEq, paramsEq]
    cases index : volIndex f.volume with
    | none => rfl
    | some v =>
      have low : ¬31 < f.volume.toNat := fun high => by rw [volIndex_none _ high] at index; cases index
      have bad := bad.resolve_left low
      have program : k ≠ .program := by revert kind; cases k <;> decide
      rw [if_neg program] at count
      have malformed : badAdmin k f.params = true := by
        by_contra good
        rw [(adminParams_iff kind).mpr ⟨count, Bool.not_eq_true _ ▸ good⟩] at bad
        cases bad
      dsimp only
      rw [malformed, if_pos rfl]
      rfl
  · rw [exec_takesKind hc takes mode count read.1 read.2]
    have malformed : badProvision f.params = true := by
      by_contra good
      rw [provisionParams_iff.mpr ⟨count, Bool.not_eq_true _ ▸ good⟩] at bad
      cases bad
    change Host.Outcome.next (takeProvision _ _ _) = _
    rw [takeProvision, paramsEq, malformed, if_pos rfl]
    rfl
  · rw [exec_takesKind hc takes mode count read.1 read.2]
    change Host.Outcome.next (takeProvision _ _ _) = _
    rw [takeProvision, paramsEq, (provisionParams_iff.mp params).2, if_neg (by decide), State.taken_prov, if_pos prov]
    rfl
  · rw [exec_takesKind hc takes mode count read.1 read.2]
    have taken : takeKind (requestOfFrame k f) f.port (s.taken k f) = takeStaging (requestOfFrame k f) f.port (s.taken k f) :=
      takeKind_staging f.port _ kind
    rw [taken, takeStaging, volume, kindEq, paramsEq]
    cases index : volIndex f.volume with
    | none => rfl
    | some v =>
      have low : ¬31 < f.volume.toNat := fun high => by rw [volIndex_none _ high] at index; cases index
      have bad := bad.resolve_left low
      have malformed : badStaging k f.params = true := by
        by_contra good
        rw [(stagingParams_iff kind).mpr ⟨count, Bool.not_eq_true _ ▸ good⟩] at bad
        cases bad
      dsimp only
      rw [malformed, if_pos rfl]
      rfl
  · rw [exec_staging hc takes mode params named, unclaimed]

end Sys2Proof.Machine
end

section
/-! Whole frames (R156 to R165, R168 to R170, R177 to R180, R182): STATUS, unknown, FETCH and SUBMIT frames, what is read back
from their bytes, and when a request is not taken. -/

namespace Sys2Proof.Machine

/-! ### The status byte (R178) -/

theorem packStatus_mode (m : Mode) (o : FrameOutcome) (n : Nat) : (packStatus m o n).extractLsb' 6 2 = modeCode m := by
  unfold packStatus
  generalize BitVec.ofNat 4 n = x
  revert x
  cases m <;> cases o <;> decide

theorem packStatus_outcome (m : Mode) (o : FrameOutcome) (n : Nat) : (packStatus m o n).extractLsb' 4 2 = outcomeCode o := by
  unfold packStatus
  generalize BitVec.ofNat 4 n = x
  revert x
  cases m <;> cases o <;> decide

theorem packStatus_held (m : Mode) (o : FrameOutcome) (n : Nat) : (packStatus m o n).extractLsb' 0 4 = BitVec.ofNat 4 n := by
  unfold packStatus
  generalize BitVec.ofNat 4 n = x
  revert x
  cases m <;> cases o <;> decide

section
variable (s : State) (p : Port)

theorem State.closeFrame_setOutcome (out : List Byte) (o : FrameOutcome) : (s.closeFrame p out).setOutcome p o =
    s.setHpi p { s.hpi[p] with sel := false, frame := none, sdo := out, outcome := o } := by
  simp [State.closeFrame, State.setOutcome, State.setHpi]

theorem State.closeFrame_popResponse (out : List Byte) : (s.closeFrame p out).popResponse p =
    s.setHpi p { s.hpi[p] with sel := false, frame := none, sdo := out, queue := s.hpi[p].queue.tail } := by
  simp [State.closeFrame, State.popResponse, State.setHpi]

theorem State.openFrame_sdo : (s.openFrame p).hpi[p].sdo = s.hpi[p].sdo := by
  simp [State.openFrame, State.setHpi]

end

/-- Settles O4: a STATUS frame, a frame of unknown kind and a select period without a whole byte end by `closeFrame`. -/
theorem plainFrames : Obligations.PlainFrames := by
  intro p s serves
  refine ⟨fun extra => ?_, fun k rest unknown => ?_, ?_, ?_, ?_, fun room => ?_⟩
  · change frameStep p .whole _ (finishStatus p extra.length) s = _
    rw [frameStep_whole s p _ _ serves, finishStatus, State.closeFrame_openFrame]
    rfl
  · have other : k ≠ statusKind ∧ k ≠ submitKind ∧ k ≠ fetchKind := by
      refine ⟨?_, ?_, ?_⟩ <;> rintro rfl <;> exact absurd unknown (by decide)
    obtain ⟨notStatus, notSubmit, notFetch⟩ := other
    change frameStep p .whole _ (finishRaw p (k :: rest)) s = _
    rw [frameStep_whole s p _ _ serves, finishRaw, if_neg notStatus, if_neg notSubmit, if_neg notFetch, State.closeFrame_openFrame,
      State.closeFrame_setOutcome]
    rfl
  · change frameStep p .whole _ (finishRaw p []) s = _
    rw [frameStep_whole s p _ _ serves, finishRaw, State.closeFrame_openFrame, State.openFrame_sdo]
    rfl
  · rw [State.statusByte, packStatus_mode]
    cases s.mode <;> rfl
  · rw [State.statusByte, packStatus_outcome]
    cases s.hpi[p].outcome <;> rfl
  · rw [State.statusByte, packStatus_held, BitVec.toNat_ofNat]
    exact Nat.mod_eq_of_lt (by rw [State.held]; omega)

/-! ### FETCH (R168, R180) -/

/-- The bytes of a response before its CRC-16 (R180). -/
def responseFront (r : Response) : List Byte :=
  half (r.body.length + 5) ++ [r.tag, kindCode r.kind, statusCode r.status] ++ r.body

section
variable (r : Response)

theorem responseBytes_eq : responseBytes r = responseFront r ++ be16 (crc16 (responseFront r)) := rfl

theorem responseFront_length : (responseFront r).length = r.body.length + 5 := by
  simp [responseFront]
  omega

theorem responseBytes_length : (responseBytes r).length = r.body.length + 7 := by
  rw [responseBytes_eq, List.length_append, responseFront_length, be16_length]

theorem responseBytes_crc : halfAt (responseBytes r) (r.body.length + 5)
    = crc16 ((responseBytes r).take (r.body.length + 5)) := by
  have back := halfAt_append (responseFront r) (crc16 (responseFront r)) []
  rw [List.append_nil, responseFront_length] at back
  rw [responseBytes_eq, back, List.take_left' (responseFront_length r)]

theorem responseBytes_body (i : Nat) (lt : i < r.body.length) : byteAt (responseBytes r) (5 + i) = r.body.getD i 0 := by
  rw [← byteAt_drop, show (responseBytes r).drop 5 = r.body ++ be16 (crc16 (responseFront r)) from rfl, byteAt,
    List.getD_append _ _ _ _ lt]

end

theorem Clocked.length_div (x : Clocked) : x.length / 8 = x.bytes.length := by
  rw [Clocked.length]
  omega

/-- Settles O5: the kind byte of a FETCH selects the head of the queue, and the last bit of the selected response removes it. -/
theorem fetchFrameReturnsTheHead : Obligations.FetchFrameReturnsTheHead := by
  intro p x s serves
  have whole : exec (.fetchFrame p .whole x) s = finishFetch p x.length
      { status := s.statusByte p, bytes := fetchKind :: x.bytes, selected := s.hpi[p].queue.head? } (s.openFrame p) :=
    frameStep_whole s p (fetchKind :: x.bytes) (finishFetch p x.length) serves
  refine ⟨fun r rest queue => ⟨?_, responseBytes_length r, halfAt_of_drop rfl, rfl, rfl, rfl, responseBytes_body r,
    responseBytes_crc r⟩, fun empty => ?_, ?_, fun q t attn => (Bool.and_eq_true_iff.mp attn).1⟩
  · have shifted : fetchedWhole (s.hpi[p].queue.head?) x.length = decide (8 * (r.body.length + 7) ≤ 8 * x.bytes.length + x.bits.val) := by
      rw [queue, List.head?_cons, fetchedWhole, responseBytes_length]
      rfl
    have out : (List.range (x.length / 8)).map (byteAt (fetchBytes s.hpi[p].queue.head?))
        = (List.range x.bytes.length).map (fun i => (responseBytes r).getD i 0) := by
      rw [queue, Clocked.length_div]
      rfl
    rw [whole, finishFetch]
    dsimp only
    rw [shifted, out, State.closeFrame_openFrame]
    by_cases all : 8 * (r.body.length + 7) ≤ 8 * x.bytes.length + x.bits.val
    · rw [decide_eq_true all, if_pos rfl, if_pos all, State.closeFrame_popResponse, queue]
      rfl
    · rw [decide_eq_false all, if_neg (by decide), if_neg all, ← queue]
      rfl
  · have out : (List.range (x.length / 8)).map (byteAt (fetchBytes s.hpi[p].queue.head?)) = List.replicate x.bytes.length 0 := by
      rw [empty, Clocked.length_div, List.eq_replicate_iff]
      refine ⟨by simp, fun b mem => ?_⟩
      obtain ⟨i, -, rfl⟩ := List.mem_map.mp mem
      rcases i with _ | _ | i <;> rfl
    rw [whole, finishFetch]
    dsimp only
    rw [out, State.closeFrame_openFrame, show fetchedWhole s.hpi[p].queue.head? x.length = false by rw [empty]; rfl, if_neg (by decide)]
    rfl
  · simp [State.attn, serves]

/-! ### SUBMIT frames that are REJECTED (R162) -/

theorem kindOfCode_none {b : Byte} (unknown : ∀ k ∈ hostKinds, kindCode k ≠ b) : kindOfCode b = none := by
  refine List.find?_eq_none.mpr fun k mem => ?_
  simpa using unknown k mem

theorem parseSubmit_none {bytes : List Byte} (bad : bytes.length < 2 ∨ (halfAt bytes 0).toNat < 5 ∨ 267 < (halfAt bytes 0).toNat
    ∨ bytes.length < 2 + (halfAt bytes 0).toNat
    ∨ halfAt bytes (halfAt bytes 0).toNat ≠ crc16 (0x01 :: bytes.take (halfAt bytes 0).toNat)
    ∨ ∀ k ∈ hostKinds, kindCode k ≠ byteAt bytes 3) : parseSubmit bytes = none := by
  unfold parseSubmit
  split
  · rfl
  next long =>
    dsimp only
    split
    · rfl
    next range =>
      split
      · rfl
      next whole =>
        split
        · rfl
        next crc =>
          have unknown : ∀ k ∈ hostKinds, kindCode k ≠ byteAt bytes 3 := by
            rcases bad with h | h | h | h | h | h
            · exact absurd h long
            · exact absurd (.inl h) range
            · exact absurd (.inr h) range
            · exact absurd h whole
            · exact absurd h crc
            · exact h
          rw [kindOfCode_none unknown]

/-- Settles O6: such a frame carries no request, or STARTING refuses the request it carries. -/
theorem badSubmitFramesAreRejected : Obligations.BadSubmitFramesAreRejected := by
  intro p bytes s serves bad
  change frameStep p .whole _ (finishRawSubmit p bytes) s = _
  rw [frameStep_whole s p _ _ serves, finishRawSubmit]
  dsimp only
  rw [State.closeFrame_openFrame]
  cases parsed : parseSubmit bytes with
  | none =>
    dsimp only
    rw [State.closeFrame_setOutcome]
    rfl
  | some r =>
    have starting : s.mode = .starting := by
      refine bad.resolve_right fun rest => ?_
      rw [parseSubmit_none rest] at parsed
      cases parsed
    dsimp only
    rw [submitRequest, if_pos (.inl starting), State.closeFrame_setOutcome]
    rfl

/-! ### Reading back (R161, R179, R182) -/

section
variable (r : Request) (extra : List Byte)

theorem submitFront_length : (submitFront r).length = r.params.length + 5 := by
  simp [submitFront]
  omega

theorem encodeSubmit_append : encodeSubmit r ++ extra
    = submitFront r ++ be16 (crc16 (submitKind :: submitFront r)) ++ extra := rfl

theorem parseSubmit_encodeSubmit (host : r.kind ∈ hostKinds) (short : r.params.length ≤ 262) :
    parseSubmit (encodeSubmit r ++ extra) = some r := by
  have long : (encodeSubmit r ++ extra).length = r.params.length + 7 + extra.length := by
    rw [encodeSubmit_append, List.length_append, List.length_append, submitFront_length, be16_length]
  have size : (halfAt (encodeSubmit r ++ extra) 0).toNat = r.params.length + 5 := by
    rw [show halfAt (encodeSubmit r ++ extra) 0 = BitVec.ofNat 16 (r.params.length + 5) from halfAt_of_drop rfl, BitVec.toNat_ofNat]
    omega
  have front : (encodeSubmit r ++ extra).take (r.params.length + 5) = submitFront r := by
    rw [encodeSubmit_append, List.append_assoc, List.take_left' (submitFront_length r)]
  have crc : halfAt (encodeSubmit r ++ extra) (r.params.length + 5) = crc16 (submitKind :: submitFront r) := by
    rw [encodeSubmit_append, ← submitFront_length]
    exact halfAt_append _ _ _
  have code : byteAt (encodeSubmit r ++ extra) 3 = kindCode r.kind := rfl
  unfold parseSubmit
  dsimp only
  rw [if_neg (by omega), size, if_neg (by omega), if_neg (by omega), front, crc, if_neg (by simp), code,
    kindOfCode_kindCode r.kind host]
  rfl

end

section
variable (e : JEntry)

theorem recordBody_length (c : JRecord) : (recordBody c).length ≤ 22 := by
  cases c <;> simp [recordBody]

theorem entryFront_length : (entryFront e).length = 28 := by
  have := recordBody_length e.content
  simp [entryFront]
  omega

theorem recordOf_entryBytes : recordOf (entryBytes e) = some e.content := by
  obtain ⟨seq, content⟩ := e
  cases content with
  | header epoch => exact congrArg some (by rw [show wordAt _ 6 = epoch from wordAt_of_drop rfl])
  | delete | pin | unpin | rollback | access | stage => rfl
  | create v label size a b rd w =>
    rw [recordOf]
    change some (JRecord.create v (halfAt _ 6) size (halfAt _ 9) (halfAt _ 11) rd w) = _
    rw [halfAt_of_drop rfl, halfAt_of_drop rfl, halfAt_of_drop rfl]
  | commit v slot gen len crc =>
    change some (JRecord.commit v slot (wordAt _ 7) (wordAt _ 11) (wordAt _ 15)) = _
    rw [wordAt_of_drop rfl, wordAt_of_drop rfl, wordAt_of_drop rfl]
  | snapVol v label size a b rd w pinned gen =>
    change some (JRecord.snapVol v (halfAt _ 6) size (halfAt _ 9) (halfAt _ 11) rd w pinned (wordAt _ 16)) = _
    rw [halfAt_of_drop rfl, halfAt_of_drop rfl, halfAt_of_drop rfl, wordAt_of_drop rfl]
  | snapSlot v slot state gen len crc =>
    change some (JRecord.snapSlot v slot state (wordAt _ 8) (wordAt _ 12) (wordAt _ 16)) = _
    rw [wordAt_of_drop rfl, wordAt_of_drop rfl, wordAt_of_drop rfl]
  | snapEnd count =>
    change some (JRecord.snapEnd (halfAt _ 6)) = _
    rw [halfAt_of_drop rfl]

theorem entryOf_entryBytes : entryOf (entryBytes e) = some e := by
  have crc : wordAt (entryBytes e) 28 = crc32 ((entryBytes e).take 28) := by
    have back := wordAt_append (entryFront e) (crc32 (entryFront e)) []
    rw [List.append_nil, entryFront_length] at back
    rw [entryBytes, back, List.take_left' (entryFront_length e)]
  have seq : wordAt (entryBytes e) 1 = e.seq := wordAt_of_drop rfl
  rw [entryOf, if_pos ⟨entryBytes_length e, crc⟩, recordOf_entryBytes, Option.map_some, seq]

end

/-- Settles O7: each field stands at the offset that it is read from. -/
theorem framesAndEntriesDecode : Obligations.FramesAndEntriesDecode :=
  ⟨parseSubmit_encodeSubmit, fun e => ⟨entryBytes_length e, entryOf_entryBytes e⟩⟩

/-! ### Requests that are not taken (R162, R163, R165) -/

section
variable (s : State) (p : Port) (v : Vol)

theorem State.heldClaim_isSome : (s.heldClaim p v).isSome = true
    ↔ ∃ d : ClaimIx, ∃ cl ∈ s.claims[d], cl.vol = v ∧ cl.holder = p ∧ cl.state = .held := by
  constructor
  · intro some
    obtain ⟨c, holds⟩ := Option.isSome_iff_exists.mp some
    exact ⟨c, s.heldClaim_some p v c holds⟩
  · rintro ⟨d, cl, entry, vol, holder, held⟩
    have entry : s.claims[d] = Option.some cl := entry
    by_contra none
    rw [Bool.not_eq_true, Option.isSome_eq_false_iff, Option.isNone_iff_eq_none] at none
    have := (claimIxs_find_none _).mp none d
    simp [State.claimNames, State.heldBy, entry, vol, holder, held] at this

theorem State.waitsFor_iff : s.waitsFor p v = true ↔ ∃ w ∈ s.waits, w.port = p ∧ w.vol = v := by
  simp [State.waitsFor]

theorem State.standing_iff (b : Byte) : s.standing p b = true ↔ ∃ v : Vol, b = volByte v ∧
    ((∃ d : ClaimIx, ∃ cl ∈ s.claims[d], cl.vol = v ∧ cl.holder = p ∧ cl.state = .held) ∨ ∃ w ∈ s.waits, w.port = p ∧ w.vol = v) := by
  unfold State.standing
  cases index : volIndex b with
  | none =>
    refine ⟨fun h => absurd h Bool.false_ne_true, ?_⟩
    rintro ⟨v, rfl, -⟩
    rw [volIndex_volByte] at index
    cases index
  | some v =>
    have named : b = volByte v := by
      unfold volIndex at index
      split at index
      · cases index
        simp [volByte, byteOf]
      · cases index
    dsimp only
    rw [Bool.or_eq_true, State.heldClaim_isSome, State.waitsFor_iff]
    refine ⟨fun h => ⟨v, named, h⟩, ?_⟩
    rintro ⟨w, other, h⟩
    have same := congrArg volIndex (named.symm.trans other)
    rw [volIndex_volByte, volIndex_volByte, Option.some.injEq] at same
    rwa [same]

end

/-- A host sends every kind but COMPACT (R89, R179). -/
theorem Instr.requestOf_host {c : Instr} {k : Kind} {f : Submit} (hc : c.requestOf = some (k, f)) : k ∈ hostKinds := by
  cases c <;> simp only [Instr.requestOf, Option.some.injEq, Prod.mk.injEq, reduceCtorEq] at hc <;>
    exact hc.1 ▸ by decide

theorem isEngineKind_iff {k : Kind} (host : k ∈ hostKinds) : isEngineKind k = true ↔ k ∈ [Kind.createVolume, .deleteVolume, .setAccess,
    .pin, .unpin, .format, .provision, .beginStage, .erase, .program, .commit, .rollback] := by
  revert host
  cases k <;> decide

/-- Settles O8: a whole frame of a request comes to `submitRequest`, whose first two checks these are. -/
theorem requestsNotTaken : Obligations.RequestsNotTaken := by
  intro c k f s hc serves whole short
  have comes : exec c s = submitRequest (requestOfFrame k f) f.port (s.framed f) := by
    rw [exec_request s c k f hc, submitFrame_whole s k f serves whole]
  refine ⟨fun starting => ?_, fun begun room => ?_, fun kind flag => ?_, fun kind some flag => ?_, fun kind none standing => ?_,
    fun kind other => ?_, fun notClaim notRelease => ?_, ?_⟩
  · rw [comes, submitRequest, if_pos (.inl starting)]
  · have full : isFull (requestOfFrame k f) f.port (s.framed f) = true := by
      unfold isFull
      rw [Bool.or_eq_true, Bool.and_eq_true]
      refine room.imp (fun few => ?_) fun ⟨engine, four⟩ => ⟨?_, ?_⟩
      · rw [State.framed, freeEntries_closeFrame]
        exact decide_eq_true few
      · exact (isEngineKind_iff (Instr.requestOf_host hc)).mpr engine
      · exact decide_eq_true (le_of_eq four.symm)
    rw [comes, submitRequest, if_neg (show ¬((s.framed f).mode = .starting ∨ 262 < (requestOfFrame k f).params.length) from not_or.mpr ⟨begun, Nat.not_lt.mpr short⟩), full, if_pos rfl]
  · subst kind
    have zero : byteAt f.params 0 = 0 := flag.elim (fun none => by rw [none]; rfl) id
    rw [need, if_pos zero]
  · subst kind
    rw [need, if_neg flag]
  · subst kind
    rw [need, (s.standing_iff f.port f.volume).mpr standing, none]
    rfl
  · subst kind
    refine if_neg fun both => ?_
    obtain ⟨standing, empty⟩ := Bool.and_eq_true_iff.mp both
    exact other.elim (fun some => some (List.isEmpty_iff.mp empty)) (fun no => no ((s.standing_iff f.port f.volume).mp standing))
  · cases k <;> first | rfl | contradiction
  · exact isEngineKind_iff (Instr.requestOf_host hc)

end Sys2Proof.Machine
end

section
/-! The moments of a frame (R156, R157, R159, R161, R168, R171, R173, R174). -/

namespace Sys2Proof.Machine

/-! ### A taken request adds responses to queues and touches nothing else a port holds -/

section
variable {s t : State} (r : Request) (p : Port)

theorem Work.answered (w : Work s t) : Answered s.hpi t.hpi := by
  cases w with
  | runs u t o idle begun picked starts =>
    obtain ⟨_, _, _, _, rfl⟩ := s.takePick_frame o u picked
    obtain ⟨_, _, rfl⟩ := (startOp_runs starts).frame
    exact .refl _
  | ends u v o st body idle begun picked starts =>
    have same : v.hpi = s.hpi := by
      obtain ⟨_, _, _, _, rfl⟩ := s.takePick_frame o u picked
      rcases startOp_ends starts with rfl | rfl <;> rfl
    exact same ▸ State.finish_answered st body

theorem pickUpTo_answered (n : Nat) (idle : s.engine = none) (begun : s.mode ≠ .starting) : Answered s.hpi (pickUpTo n s).hpi := by
  induction n generalizing s with
  | zero => exact .refl _
  | succ n ih =>
    unfold pickUpTo
    cases picked : s.takePick with
    | none => exact .refl _
    | some q =>
      obtain ⟨o, u⟩ := q
      dsimp only
      cases starts : startOp o u with
      | runs w => exact (Work.runs s u w o idle begun picked starts).answered
      | ends st body w =>
        have ended : Work s (w.finish st body) := .ends s u w o st body idle begun picked starts
        refine ended.answered.trans (ih (w.finish_engine st body) ?_)
        obtain ⟨_, _, _, _, _, _, _, _, m, frame, mode⟩ := ended.frame
        rw [frame]
        rcases mode with mode | mode <;> rw [mode]
        · exact begun
        · exact fun h => nomatch h

theorem State.pick_answered : Answered s.hpi s.pick.hpi := by
  unfold State.pick
  split
  · exact .refl _
  next free =>
    obtain ⟨idle, begun⟩ := not_or.mp free
    exact pickUpTo_answered _ (by simpa using idle) begun

theorem State.answer_answered (st : Status) (body : List Byte) : Answered s.hpi (s.answer p r st body).hpi :=
  State.adds_answered p _

theorem State.enqueue_answered (o : Op) : Answered s.hpi (s.enqueue p o).hpi :=
  State.pick_answered (s := s.setFifo p (s.fifos[p] ++ [o]))

theorem takeAdmin_answered : Answered s.hpi (takeAdmin r p s).hpi := by
  unfold takeAdmin
  split
  · apply State.answer_answered
  · split
    · apply State.answer_answered
    · split
      · apply State.answer_answered
      · apply State.enqueue_answered

theorem takeFormat_answered : Answered s.hpi (takeFormat r p s).hpi := by
  unfold takeFormat
  split
  · apply State.answer_answered
  · apply State.enqueue_answered

theorem takeProvision_answered : Answered s.hpi (takeProvision r p s).hpi := by
  unfold takeProvision
  split
  · apply State.answer_answered
  · split
    · apply State.answer_answered
    · apply State.enqueue_answered

theorem takeStaging_answered : Answered s.hpi (takeStaging r p s).hpi := by
  unfold takeStaging
  split
  · apply State.answer_answered
  · split
    · apply State.answer_answered
    · split
      · apply State.answer_answered
      · exact State.enqueue_answered (s := s.onClaim _ _) _ _

theorem takeResolved_answered (res : Except Status Resolved) : Answered s.hpi (takeResolved res r p s).hpi := by
  unfold takeResolved answerRead
  repeat' split
  all_goals apply State.answer_answered

theorem takeOpenView_answered : Answered s.hpi (takeOpenView r p s).hpi := by
  unfold takeOpenView
  repeat' split
  all_goals apply State.answer_answered

theorem takeCloseView_answered : Answered s.hpi (takeCloseView r p s).hpi := by
  unfold takeCloseView
  repeat' split
  all_goals apply State.answer_answered

theorem takeQueryVolume_answered : Answered s.hpi (takeQueryVolume r p s).hpi := by
  unfold takeQueryVolume
  repeat' split
  all_goals apply State.answer_answered

theorem takeClaim_answered : Answered s.hpi (takeClaim r p s).hpi := by
  unfold takeClaim claimChecked claimWaits claimNow
  repeat' split
  all_goals apply State.answer_answered

theorem takeRelease_answered : Answered s.hpi (takeRelease r p s).hpi := by
  unfold takeRelease withdraw
  split
  · apply State.answer_answered
  · split
    · apply State.revoke_answered
    · split <;> apply State.answer_answered

theorem takeRenew_answered : Answered s.hpi (takeRenew r p s).hpi := by
  unfold takeRenew
  repeat' split
  all_goals apply State.answer_answered

theorem takeKind_answered : Answered s.hpi (takeKind r p s).hpi := by
  unfold takeKind
  split
  · apply State.answer_answered
  · apply takeQueryVolume_answered
  iterate 5 apply takeAdmin_answered
  · apply takeFormat_answered
  · apply takeProvision_answered
  · apply takeResolved_answered
  · apply takeOpenView_answered
  · apply takeCloseView_answered
  · apply takeClaim_answered
  · apply takeRelease_answered
  · apply takeRenew_answered
  iterate 5 apply takeStaging_answered
  · apply takeResolved_answered
  · exact .refl _

theorem takeRequest_answered : Answered s.hpi (takeRequest r p s).hpi := by
  unfold takeRequest
  split
  · apply State.answer_answered
  · split
    · apply State.answer_answered
    · apply takeKind_answered

theorem State.reload_hpi (k : Kind) (b : Byte) : (s.reload p k b).hpi = s.hpi := by
  unfold State.reload
  repeat' split
  all_goals rfl

end

/-! ### The end of a frame -/

/-- A port after a frame: none is in progress, and PnSEL is deasserted (R156). -/
def Hpi.closed (h : Hpi) : Prop := h.frame = none ∧ h.sel = false

theorem Answered.closed {hs hs' : Vector Hpi 4} (h : Answered hs hs') {p : Port} (closed : hs[p].closed) : hs'[p].closed := by
  obtain ⟨rs, e⟩ := h p
  rw [e]
  exact closed

section
variable (s : State) (p : Port)

theorem State.closeFrame_closed (out : List Byte) : ((s.closeFrame p out).hpi[p]).closed := by
  simp [State.closeFrame, Hpi.closed]

theorem State.setOutcome_closed (o : FrameOutcome) (closed : s.hpi[p].closed) : ((s.setOutcome p o).hpi[p]).closed := by
  simpa [State.setOutcome, Hpi.closed] using closed

theorem State.popResponse_closed (closed : s.hpi[p].closed) : ((s.popResponse p).hpi[p]).closed := by
  simpa [State.popResponse, Hpi.closed] using closed

theorem submitRequest_closed {r : Request} {t : State} (closed : s.hpi[p].closed) (next : submitRequest r p s = .next t) :
    t.hpi[p].closed := by
  unfold submitRequest at next
  split at next
  · cases next
    exact s.setOutcome_closed p _ closed
  · split at next
    · cases next
      exact s.setOutcome_closed p _ closed
    · dsimp only at next
      split at next
      · cases next
      · cases next
        refine (takeRequest_answered _ p).closed ?_
        rw [State.reload_hpi]
        exact s.setOutcome_closed p _ closed

end

/-- The end of a frame: it does not look at the latched frame and the level of PnSEL, and leaves neither. -/
structure Finishes (p : Port) (finish : Frame → State → Res) : Prop where
  latched (f : Frame) (s : State) (b : Bool) (x : Option Frame) :
    finish f (s.setHpi p { s.hpi[p] with sel := b, frame := x }) = finish f s
  closed {f : Frame} {s t : State} (next : finish f s = .next t) : t.hpi[p].closed

section
variable (p : Port)

theorem State.closeFrame_latched (s : State) (b : Bool) (x : Option Frame) (out : List Byte) :
    (s.setHpi p { s.hpi[p] with sel := b, frame := x }).closeFrame p out = s.closeFrame p out := by
  simp [State.closeFrame]

theorem finishStatus_finishes (n : Nat) : Finishes p (finishStatus p n) where
  latched f s b x := by rw [finishStatus, State.closeFrame_latched]; rfl
  closed next := by
    cases next
    exact State.closeFrame_closed ..

theorem finishFetch_finishes (n : Nat) : Finishes p (finishFetch p n) where
  latched f s b x := by
    rw [finishFetch]
    dsimp only
    rw [State.closeFrame_latched]
    rfl
  closed {f s t} next := by
    unfold finishFetch at next
    cases next
    split
    · exact State.popResponse_closed _ _ (State.closeFrame_closed ..)
    · exact State.closeFrame_closed ..

theorem finishSubmit_finishes (r : Request) (n : Nat) : Finishes p (finishSubmit r p n) where
  latched f s b x := by rw [finishSubmit, State.closeFrame_latched]; rfl
  closed next := submitRequest_closed _ p (State.closeFrame_closed ..) next

theorem finishRawSubmit_finishes (bytes : List Byte) : Finishes p (finishRawSubmit p bytes) where
  latched f s b x := by
    rw [finishRawSubmit]
    dsimp only
    rw [State.closeFrame_latched]
    rfl
  closed {f s t} next := by
    unfold finishRawSubmit at next
    dsimp only at next
    split at next
    · cases next
      exact State.setOutcome_closed _ p _ (State.closeFrame_closed ..)
    · exact submitRequest_closed _ p (State.closeFrame_closed ..) next

theorem finishRaw_finishes (bytes : List Byte) : Finishes p (finishRaw p bytes) where
  latched f s b x := by
    cases bytes with
    | nil =>
      rw [finishRaw, State.closeFrame_latched]
      simp [finishRaw]
    | cons k rest =>
      unfold finishRaw
      dsimp only
      rw [(finishStatus_finishes p _).latched, (finishRawSubmit_finishes p _).latched, (finishFetch_finishes p _).latched,
        State.closeFrame_latched]
  closed {f s t} next := by
    cases bytes with
    | nil =>
      cases next
      exact State.closeFrame_closed ..
    | cons k rest =>
      unfold finishRaw at next
      dsimp only at next
      split at next
      · exact (finishStatus_finishes p _).closed next
      · split at next
        · exact (finishRawSubmit_finishes p _).closed next
        · split at next
          · exact (finishFetch_finishes p _).closed next
          · cases next
            exact State.setOutcome_closed _ p _ (State.closeFrame_closed ..)

theorem exec_requestMoment {c : Instr} {k : Kind} {f : Submit} (h : c.requestOf = some (k, f)) (x : Moment) (s : State) :
    exec (atMoment x c) s
      = frameStep f.port x (wireOf c) (finishSubmit (requestOfFrame k f) f.port f.extra.length) s := by
  have same : (atMoment x c).requestOf = some (k, { f with moment := x }) ∧ wireOf c = submitWire (requestOfFrame k f) f.extra := by
    cases c <;> simp only [Instr.requestOf, Option.some.injEq, Prod.mk.injEq, reduceCtorEq] at h <;>
      obtain ⟨rfl, rfl⟩ := h <;> exact ⟨rfl, rfl⟩
  rw [exec_request s _ _ _ same.1, same.2]
  rfl

/-- A frame command is the `frameStep` of its moment, wire and end. -/
theorem exec_frameOf {c : Instr} {m : Moment} (h : c.frameOf = some (p, m)) :
    ∃ finish, Finishes p finish ∧ ∀ x s, exec (atMoment x c) s = frameStep p x (wireOf c) finish s := by
  cases c <;> simp only [Instr.frameOf, Option.some.injEq, Prod.mk.injEq, reduceCtorEq] at h
  case statusFrame => obtain ⟨rfl, rfl⟩ := h; exact ⟨_, finishStatus_finishes _ _, fun _ _ => rfl⟩
  case fetchFrame => obtain ⟨rfl, rfl⟩ := h; exact ⟨_, finishFetch_finishes _ _, fun _ _ => rfl⟩
  case unknownFrame => obtain ⟨rfl, rfl⟩ := h; exact ⟨_, finishRaw_finishes _ _, fun _ _ => rfl⟩
  case submitRejected => obtain ⟨rfl, rfl⟩ := h; exact ⟨_, finishRawSubmit_finishes _ _, fun _ _ => rfl⟩
  all_goals
    obtain ⟨rfl, rfl⟩ := h
    exact ⟨_, finishSubmit_finishes _ _ _, exec_requestMoment rfl⟩

end

/-! ### The moments -/

section
variable (s : State) (p : Port) (wire : List Byte) (finish : Frame → State → Res)

/-- A frame at its select: the status byte is taken, and no byte has been received (R157, R159). -/
def State.openedFrame : Frame := { status := s.statusByte p, bytes := [], selected := none }

/-- The port with PnSEL and the latched frame as given. -/
def State.latch (b : Bool) (x : Option Frame) : State := s.setHpi p { s.hpi[p] with sel := b, frame := x }

theorem State.openFrame_eq : s.openFrame p = s.latch p true (some (s.openedFrame p)) := rfl

theorem State.latch_get (b : Bool) (x : Option Frame) : (s.latch p b x).hpi[p] = { s.hpi[p] with sel := b, frame := x } := by
  simp [State.latch]

theorem State.latch_latch (b b' : Bool) (x x' : Option Frame) : (s.latch p b x).latch p b' x' = s.latch p b' x' := by
  simp [State.latch]

theorem State.latch_serves (b : Bool) (x : Option Frame) : (s.latch p b x).serves p = s.serves p := s.setHpi_serves p _ rfl

theorem State.latch_drives (x : Option Frame) (serves : s.serves p = true) : (s.latch p true x).drivesSdo p = true := by
  rw [State.drivesSdo, s.latch_serves, serves, s.latch_get]
  rfl

theorem Frame.receive_opened (queue : List Response) (n : Nat) : (s.openedFrame p).receive queue wire n =
    { status := s.statusByte p, bytes := wire.take n
      selected := if 1 ≤ n ∧ wire.head? = some 0x02 then queue.head? else none } := by
  have first : (wire.take n).head? = some fetchKind ↔ 1 ≤ n ∧ wire.head? = some 0x02 := by
    cases n with
    | zero => simp
    | succ n => cases wire <;> simp [fetchKind]
  simp only [Frame.receive, State.openedFrame, List.length_nil, Nat.max_zero, true_and, first]

theorem State.receive_opened (n : Nat) : (s.latch p true (some (s.openedFrame p))).receive p wire n
    = s.latch p true (some ((s.openedFrame p).receive s.hpi[p].queue wire n)) := by
  unfold State.receive
  rw [s.latch_get]
  refine (if_pos ?_).trans (s.setHpi_setHpi p _ _)
  simp [State.openedFrame]

/-- A frame that has received a part of its wire ends as the frame given whole. -/
theorem endFrame_receive (ends : Finishes p finish) (n : Nat) :
    endFrame p wire finish (s.latch p true (some ((s.openedFrame p).receive s.hpi[p].queue wire n)))
      = finish ((s.openedFrame p).receive s.hpi[p].queue wire wire.length) s := by
  have begins : ((s.openedFrame p).receive s.hpi[p].queue wire n).bytes.isPrefixOf wire = true := by
    rw [Frame.receive_opened]
    exact List.isPrefixOf_iff_prefix.mpr (List.take_prefix n wire)
  unfold endFrame
  rw [s.latch_get]
  dsimp only
  rw [begins, if_pos rfl, Frame.receive_receive _ _ _ _ rfl rfl]
  exact ends.latched _ s true _

theorem endFrame_opened (ends : Finishes p finish) : endFrame p wire finish (s.openFrame p)
    = finish ((s.openedFrame p).receive s.hpi[p].queue wire wire.length) s := by
  rw [← endFrame_receive s p wire finish ends 0]
  congr 1

end

/-- Settles O3: every frame command is a `frameStep`, and the end of a frame looks only at what it has received. -/
theorem momentsMakeTheFrame : Obligations.MomentsMakeTheFrame := by
  intro c p m n s frame
  obtain ⟨finish, ends, step⟩ := exec_frameOf p frame
  simp only [step]
  refine ⟨fun serves => ?_, fun silent => ?_⟩
  · have at_ (u : State) (x : Moment) (h : u.serves p = true) : frameStep p x (wireOf c) finish u = match x with
        | .select => .next (u.openFrame p)
        | .received n => .next (u.receive p (wireOf c) n)
        | .deselect => endFrame p (wireOf c) finish u
        | .whole => endFrame p (wireOf c) finish (u.openFrame p) := if_neg (by rw [h]; decide)
    have opened : (s.latch p true (some (s.openedFrame p))).serves p = true := by rw [s.latch_serves, serves]
    have whole := endFrame_opened s p (wireOf c) finish ends
    refine ⟨at_ s .select serves, s.latch_drives p _ serves, ?_, s.latch_drives p _ serves, ?_, fun t next => ?_,
      fun f latched other => ?_, fun latched => ?_⟩
    · refine (at_ (s.latch p true (some (s.openedFrame p))) (.received n) opened).trans ?_
      dsimp only
      rw [s.receive_opened, Frame.receive_opened]
      rfl
    · have part := endFrame_receive s p (wireOf c) finish ends n
      rw [Frame.receive_opened] at part
      rw [at_ s .whole serves, whole]
      refine (at_ (s.latch p true _) .deselect (by rw [s.latch_serves, serves])).trans ?_
      exact part
    · rw [at_ s .whole serves] at next
      rw [whole] at next
      obtain ⟨none, low⟩ := ends.closed next
      exact ⟨none, by rw [State.drivesSdo, low, Bool.and_false]⟩
    · have otherwise : f.bytes.isPrefixOf (wireOf c) = false := by
        rw [← Bool.not_eq_true, List.isPrefixOf_iff_prefix]
        exact other
      rw [at_ s _ serves, at_ s _ serves]
      dsimp only
      rw [State.receive, endFrame, latched]
      dsimp only
      rw [otherwise]
      exact ⟨rfl, rfl⟩
    · rw [at_ s _ serves, at_ s _ serves]
      dsimp only
      rw [State.receive, endFrame, latched]
      simp only [State.setSelect, latched, and_self]
  · have at_ (x : Moment) : frameStep p x (wireOf c) finish s = .next (s.ignoreFrame p x) := if_pos silent
    refine ⟨by rw [State.drivesSdo, silent, Bool.false_and], at_ _, at_ _, fun x mem => ?_⟩
    rw [at_]
    rcases List.mem_cons.mp mem with rfl | mem
    · rfl
    · rw [List.mem_singleton.mp mem]
      rfl

end Sys2Proof.Machine
end

section
/-! Requests of the Claim Unit (R40 to R43, R45, R48 to R51). -/

namespace Sys2Proof.Machine

/-! ### Requests that the engine does not serve, in NORMAL and DEGRADED (R130) -/

/-- The requests that are answered when they are taken. -/
def servedKinds : List Kind := [.queryVolume, .read, .openView, .closeView, .claim, .release, .renew, .readStaged]

section
variable {s : State} {k : Kind} {f : Submit}

theorem modeRefusal_served (served : k ∈ servedKinds) (mode : s.mode = .normal ∨ s.mode = .degraded) : modeRefusal k s.mode = none := by
  revert served
  rcases mode with mode | mode <;> rw [mode] <;> cases k <;> decide

/-- A request that reads no array, with its parameters complete, goes on to the checks of its kind. -/
theorem exec_served {c : Instr} (hc : c.requestOf = some (k, f)) (h : s.takes k f) (mode : s.mode = .normal ∨ s.mode = .degraded)
    (served : k ∈ servedKinds) (count : f.params.length = paramSize k) (noRead : k ≠ .read ∧ k ≠ .readStaged) :
    exec c s = .next (takeKind (requestOfFrame k f) f.port (s.taken k f)) := by
  refine exec_takesKind hc h (modeRefusal_served served mode) ?_ noRead.1 noRead.2
  rw [if_neg (by rintro rfl; exact absurd served (by decide))]
  exact count

end

/-! ### What a port has on a volume -/

section
variable (s : State) (p : Port) (v : Vol)

theorem State.ownClaim_some {c : ClaimIx} {cl : Claim} (claimed : s.claimOf v = some c) (entry : s.claims[c] = some cl) :
    s.ownClaim p v = if cl.holder = p then some cl.state else none := by
  simp only [State.ownClaim, claimed, entry]

/-- A reload changes no holder and no state (R51). -/
theorem State.taken_ownClaim (k : Kind) (f : Submit) : (s.taken k f).ownClaim p v = s.ownClaim p v := by
  unfold State.ownClaim
  rw [State.taken_claimOf]
  cases s.claimOf v with
  | none => rfl
  | some c =>
    dsimp only
    rcases s.taken_claims k f c with same | ⟨x, before, after⟩
    · rw [same]
    · rw [before, after]

theorem State.waitsFor_of_mem (waits : ∃ w ∈ s.waits, w.port = p ∧ w.vol = v) : s.waitsFor p v = true :=
  (s.waitsFor_iff p v).mpr waits

theorem State.taken_waitsFor (k : Kind) (f : Submit) : (s.taken k f).waitsFor p v = s.waitsFor p v := by
  rw [State.waitsFor, State.taken_waits]
  rfl

theorem State.taken_pinRefuses (k : Kind) (f : Submit) (x : Volume) : (s.taken k f).pinRefuses x = (x.pinned && s.pinen) := by
  rw [State.pinRefuses, State.taken_pinen]

theorem State.freeClaim_some {c : ClaimIx} (free : s.claims[c] = none) (lowest : ∀ d < c, (s.claims[d]).isSome = true) :
    s.freeClaim = some c := by
  refine (claimIxs_find _ c (by rw [free]; rfl) fun d lt => ?_)
  rw [Option.isNone_eq_false_iff]
  exact lowest d lt

end

/-! ### CLAIM (R40 to R43) -/

theorem claimWait_some {ps : List Byte} {b : Byte} (params : ps = [b]) (flag : b.toNat ≤ 1) :
    claimWait ps = some (decide (b = 1)) := by
  subst params
  have cases : b = 0 ∨ b = 1 := by
    rcases Nat.le_one_iff_eq_zero_or_eq_one.mp flag with h | h
    · exact .inl (BitVec.eq_of_toNat_eq h)
    · exact .inr (BitVec.eq_of_toNat_eq h)
  rcases cases with rfl | rfl <;> rfl

theorem claimWait_none {ps : List Byte} {b : Byte} (params : ps = [b]) (flag : 1 < b.toNat) : claimWait ps = none := by
  subst params
  have zero : b ≠ 0 := by rintro rfl; exact absurd flag (by decide)
  have one : b ≠ 1 := by rintro rfl; exact absurd flag (by decide)
  exact (if_neg zero).trans (if_neg one)

/-- Settles O26: the checks of `takeClaim` in their order. -/
theorem claimRefusals : Obligations.ClaimRefusals := by
  intro f s b takes mode params
  rw [exec_claim f s takes mode params]
  have volume : (requestOfFrame .claim f).volume = f.volume := rfl
  have flag : (requestOfFrame .claim f).params = f.params := rfl
  refine ⟨fun bad => ?_, fun v named small => ?_⟩
  · unfold takeClaim
    rw [volume, flag]
    rcases bad with high | large
    · rw [volIndex_none _ high]
      rfl
    · rw [claimWait_none params large]
      cases volIndex f.volume <;> rfl
  have vols : (s.taken .claim f).vols = s.vols := State.taken_vols s .claim f
  rw [takeClaim, volume, flag, named, volIndex_volByte, claimWait_some params small, vols]
  simp only [State.taken_pinRefuses, State.taken_ownClaim, State.taken_waitsFor]
  refine ⟨fun free => ?_, fun x used => ⟨fun deleting => ?_, fun stays denied => ?_, fun stays writer pinned asserted => ?_,
    fun stays writer unpinned => ⟨fun c cl claimed entry own => ⟨fun held => ?_, fun revoking => ?_⟩, fun others waiting => ?_⟩⟩⟩
  · rw [free]
    rfl
  · rw [used]
    dsimp only
    rw [if_pos deleting]
    rfl
  · rw [used]
    dsimp only
    rw [stays, if_neg (by decide), if_pos denied]
    rfl
  · rw [used]
    dsimp only
    rw [stays, if_neg (by decide), writer, if_neg (by decide), pinned, asserted]
    rfl
  all_goals
    have pin : (x.pinned && s.pinen) = false := Bool.and_eq_false_iff.mpr unpinned
    rw [used]
    dsimp only
    rw [stays, if_neg (by decide), writer, if_neg (by decide), pin, if_neg (by decide)]
  · rw [s.ownClaim_some f.port v claimed entry, if_pos own, held]
    rfl
  · rw [s.ownClaim_some f.port v claimed entry, if_pos own, revoking]
    rfl
  · have stranger : s.ownClaim f.port v = none := by
      cases claimed : s.claimOf v with
      | none => simp only [State.ownClaim, claimed]
      | some c =>
        obtain ⟨cl, entry, -⟩ := s.claimOf_some v c claimed
        rw [s.ownClaim_some f.port v claimed entry, if_neg (others c cl claimed entry)]
    rw [stranger]
    dsimp only
    rw [s.waitsFor_of_mem f.port v waiting, if_pos rfl]
    rfl

/-- Settles O27: a claim that passes goes on to `claimChecked`, which finds the volume unclaimed and the entry free. -/
theorem claimIsServedAtOnce : Obligations.ClaimIsServedAtOnce := by
  intro f s b v x c takes mode params small named used stays writer unpinned unclaimed noWait free lowest
  rw [exec_claim_passes f s named (claimWait_some params small) used stays writer unpinned
    (fun d cl entry vol => absurd vol (unclaimed d cl entry)) noWait takes mode params]
  have noClaim : ((s.framed f).setOutcome f.port .taken).claimOf v = none := (s.claimOf_none v).mpr unclaimed
  have entry : ((s.framed f).setOutcome f.port .taken).freeClaim = some c := s.freeClaim_some free lowest
  rw [claimChecked, noClaim]
  dsimp only
  rw [entry]
  rfl

/-- Settles O29: a claim in the way or a full table leads to `claimWaits`. -/
theorem claimWithWait : Obligations.ClaimWithWait := by
  intro f s v x takes mode params named used stays writer unpinned others noWait waits
  have flag : claimWait f.params = some true := by rw [params]; rfl
  rw [exec_claim_passes f s named flag used stays writer unpinned others noWait takes mode params]
  have goes : claimChecked (requestOfFrame .claim f) f.port v true ((s.framed f).setOutcome f.port .taken)
      = claimWaits (requestOfFrame .claim f) f.port v ((s.framed f).setOutcome f.port .taken) := by
    unfold claimChecked
    rw [show ((s.framed f).setOutcome f.port .taken).claimOf v = s.claimOf v from rfl,
      show ((s.framed f).setOutcome f.port .taken).freeClaim = s.freeClaim from rfl]
    cases claimed : s.claimOf v with
    | some c => rfl
    | none =>
      have full : s.freeClaim = none := by
        rcases waits with ⟨d, cl, entry, vol⟩ | full
        · exact absurd vol ((s.claimOf_none v).mp claimed d cl entry)
        · exact s.freeClaim_none full
      rw [full]
      rfl
  rw [goes, claimWaits]
  refine ⟨fun long => ?_, fun short => ⟨_, ?_, rfl, ?_⟩⟩
  · exact congrArg _ (if_pos long)
  · exact congrArg _ (if_neg (Nat.not_le.mpr short))
  · rw [State.reservations_push]
    change _ + _ + _ + 2 * List.countP _ (s.waits ++ _) = _ + _ + _ + 2 * List.countP _ s.waits + 2
    rw [List.countP_append, List.countP_singleton, if_pos (beq_self_eq_true _), Nat.mul_add]
    rfl

/-! ### RELEASE and RENEW (R48 to R50) -/

/-- Settles O30: the branches of `takeRelease`. -/
theorem releaseEndsClaimsAndWaits : Obligations.ReleaseEndsClaimsAndWaits := by
  intro f s takes mode params
  have goes := exec_served (c := .release f) rfl takes mode (by decide) (by rw [params]; rfl) (by decide)
  have release : takeKind (requestOfFrame .release f) f.port (s.taken .release f)
      = takeRelease (requestOfFrame .release f) f.port (s.taken .release f) := rfl
  have volume : (requestOfFrame .release f).volume = f.volume := rfl
  rw [goes, release, takeRelease, volume]
  refine ⟨fun high => ?_, fun v named => ?_⟩
  · rw [volIndex_none _ high]
    rfl
  rw [named, volIndex_volByte]
  dsimp only
  rw [State.taken_heldClaim, State.taken_waits]
  refine ⟨fun c holds => ?_, fun l w l' noClaim waits port vol first => ?_, fun noClaim noWait => ?_⟩
  · rw [holds]
    rfl
  · have found : s.waits.find? (fun u => u.port == f.port && u.vol == v) = some w := by
      rw [waits, List.find?_append, List.find?_eq_none.mpr (by simpa using first)]
      simp [port, vol]
    have rest : s.waits.erase w = l ++ l' := by
      rw [waits, List.erase_append_right _ fun mem => first w mem ⟨port, vol⟩, List.erase_cons_head]
    rw [noClaim, found]
    dsimp only
    rw [withdraw, State.taken_waits, rest]
    rfl
  · have noneFound : s.waits.find? (fun u => u.port == f.port && u.vol == v) = none :=
      List.find?_eq_none.mpr (by simpa using noWait)
    rw [noClaim, noneFound]
    rfl

/-- Settles O31: the lease has been loaded when RENEW was taken, and `takeRenew` answers. -/
theorem renewReloadsTheLease : Obligations.RenewReloadsTheLease := by
  intro f s takes mode params
  have goes := exec_served (c := .renew f) rfl takes mode (by decide) (by rw [params]; rfl) (by decide)
  have renew : takeKind (requestOfFrame .renew f) f.port (s.taken .renew f)
      = takeRenew (requestOfFrame .renew f) f.port (s.taken .renew f) := rfl
  have volume : (requestOfFrame .renew f).volume = f.volume := rfl
  rw [goes, renew, takeRenew, volume]
  refine ⟨fun high => ?_, fun v named => ⟨fun noClaim => ?_, fun c cl holds entry => ?_⟩⟩
  · have kept : s.taken .renew f = (s.framed f).setOutcome f.port .taken := by
      rw [State.taken, State.reload, volIndex_none _ high, ite_self]
    rw [volIndex_none _ high, kept]
    rfl
  · rw [named, volIndex_volByte]
    dsimp only
    rw [State.taken_heldClaim, noClaim, s.taken_without_claim v .renew f named noClaim]
    rfl
  · rw [named, volIndex_volByte]
    dsimp only
    rw [State.taken_heldClaim, holds, s.taken_reloads rfl named holds entry]
    rfl

end Sys2Proof.Machine
end

section
/-! Reads and views (R3, R22, R24 to R27, R31 to R33, R75, R76, R98, R100 to R102). -/

namespace Sys2Proof.Machine

/-! ### The plane table (R100) -/

section
variable (r : Request) (p : Port) (x : Resolved) (s : State)

/-- The body of DATA for a resolved read. -/
def readBody (x : Resolved) (s : State) : List Byte :=
  word x.gen ++ [slotCode x.slot] ++ half x.len ++ (List.range x.len).map (fun i => s.store.read (x.addr + i))

theorem dataBody_readBytes : dataBody x.gen x.slot (s.store.readBytes x.addr x.len) = readBody x s := by
  rw [dataBody, Store.readBytes_eq, List.length_map, List.length_range]
  rfl

theorem State.answerData_eq : s.answerData p r x =
    s.push p { tag := r.tag, kind := r.kind, status := .data, body := readBody x s } := by
  rw [State.answerData, dataBody_readBytes]
  rfl

theorem answerRead_served (check : planeCheck s (slotPlane x.slot) = .served) : answerRead r p x s =
    s.push p { tag := r.tag, kind := r.kind, status := .data, body := readBody x s } := by
  rw [answerRead, check]
  exact s.answerData_eq r p x

theorem answerRead_suspends {e : InFlight} (busy : s.engine = some e) (check : planeCheck s (slotPlane x.slot) = .suspends) :
    answerRead r p x s = { s with engine := some { e with suspends := e.suspends + 1 } }.push p
      { tag := r.tag, kind := r.kind, status := .data, body := readBody x s } := by
  have suspended : s.onFlight (fun e => { e with suspends := e.suspends + 1 })
      = { s with engine := some { e with suspends := e.suspends + 1 } } := by rw [State.onFlight, busy]; rfl
  rw [answerRead, check]
  dsimp only
  rw [suspended, State.answerData_eq]
  rfl

theorem answerRead_retry (check : planeCheck s (slotPlane x.slot) = .retry) : answerRead r p x s =
    s.push p { tag := r.tag, kind := r.kind, status := .retry, body := [] } := by
  rw [answerRead, check]
  rfl

theorem slotPlane_eq : slotPlane x.slot = if x.slot = .a then 0 else 1 := by cases x.slot <;> rfl

/-- A plane under array work serves, suspends the work, or asks for a retry. -/
theorem answerRead_check {other short : Prop} [Decidable other] [Decidable short] {e : InFlight} (busy : s.engine = some e)
    (check : planeCheck s (slotPlane x.slot) = if other then .served else if short then .suspends else .retry) :
    answerRead r p x s = if other then s.push p { tag := r.tag, kind := r.kind, status := .data, body := readBody x s }
      else if short then { s with engine := some { e with suspends := e.suspends + 1 } }.push p
        { tag := r.tag, kind := r.kind, status := .data, body := readBody x s }
      else s.push p { tag := r.tag, kind := r.kind, status := .retry, body := [] } := by
  split at check
  next free => rw [if_pos free, answerRead_served r p x s check]
  next same =>
    rw [if_neg same]
    split at check
    next left => rw [if_pos left, answerRead_suspends r p x s busy check]
    next spent => rw [if_neg spent, answerRead_retry r p x s check]

end

/-- Settles O21: the plane check of each phase. -/
theorem planeTableAnswersReads : Obligations.PlaneTableAnswersReads := by
  intro r p x s
  refine ⟨fun idle => answerRead_served r p x s (by simp only [planeCheck, idle]), fun e busy =>
    ⟨fun phase => ?_, fun n phase => ?_, fun n pg phase => ?_, fun j phase => ?_⟩⟩
  · refine answerRead_served r p x s ?_
    rcases phase with phase | phase | phase <;> simp only [planeCheck, busy, phase]
  · rw [← slotPlane_eq]
    exact answerRead_check r p x s busy (by simp only [planeCheck, busy, phase, planeOf]; rfl)
  · rw [← slotPlane_eq]
    exact answerRead_check r p x s busy (by simp only [planeCheck, busy, phase, planeOf]; rfl)
  · have check : planeCheck s (slotPlane x.slot) = if (if j = .j0 then 0 else 1) ≠ slotPlane x.slot then .served else .retry := by
      simp only [planeCheck, busy, phase]
      cases j <;> rfl
    rw [← slotPlane_eq]
    by_cases free : (if j = .j0 then 0 else 1) ≠ slotPlane x.slot
    · rw [if_pos free] at check ⊢
      exact answerRead_served r p x s check
    · rw [if_neg free] at check ⊢
      exact answerRead_retry r p x s check

/-! ### READ and READ_STAGED (R24 to R26, R75) -/

/-- What a taken read comes to: its refusal, the fault of an access beyond the array, or the plane table. -/
def readOutcome (s : State) (k : Kind) (f : Submit) : Except Status Resolved → Res
  | .error st => .next ((s.taken k f).push f.port (responseTo f k st []))
  | .ok x => if 33554432 < x.addr + x.len then .fault .outsideArray
      else .next (answerRead (requestOfFrame k f) f.port x (s.taken k f))

section
variable {s : State} {f : Submit}

theorem exec_reads {c : Instr} {k : Kind} (hc : c.requestOf = some (k, f)) (h : s.takes k f)
    (mode : s.mode = .normal ∨ s.mode = .degraded) (count : f.params.length = paramSize k) {res : Except Status Resolved}
    (resolved : k = .read ∧ resolveRead (requestOfFrame k f) f.port (s.taken k f) = res
      ∨ k = .readStaged ∧ resolveStaged (requestOfFrame k f) f.port (s.taken k f) = res) :
    exec c s = readOutcome s k f res := by
  have served : k ∈ servedKinds := by rcases resolved with ⟨rfl, -⟩ | ⟨rfl, -⟩ <;> decide
  have passes := modeRefusal_served served mode
  have program : k ≠ .program := by rintro rfl; exact absurd served (by decide)
  have goes : takeRequest (requestOfFrame k f) f.port (s.taken k f) = takeResolved res (requestOfFrame k f) f.port (s.taken k f) := by
    rw [takeRequest_passes s k f passes (by rw [if_neg program]; exact count)]
    rcases resolved with ⟨rfl, rfl⟩ | ⟨rfl, rfl⟩ <;> rfl
  have reads : readOf (requestOfFrame k f) f.port (s.taken k f) = res.toOption := by
    have good : badCount (requestOfFrame k f) = false := by
      rw [badCount, if_neg (show (requestOfFrame k f).kind ≠ .program from program)]
      exact decide_eq_false (not_not.mpr count)
    have checked : ¬((modeRefusal (requestOfFrame k f).kind (s.taken k f).mode).isSome = true ∨ badCount (requestOfFrame k f) = true) := by
      rw [State.taken_mode, show modeRefusal (requestOfFrame k f).kind s.mode = none from passes, good]
      decide
    rw [readOf, if_neg checked]
    rcases resolved with ⟨rfl, resolved⟩ | ⟨rfl, resolved⟩
    · rw [if_pos (show (requestOfFrame .read f).kind = .read from rfl), resolved]
      cases res <;> rfl
    · rw [if_neg (show (requestOfFrame .readStaged f).kind ≠ .read from fun h => nomatch h),
        if_pos (show (requestOfFrame .readStaged f).kind = .readStaged from rfl), resolved]
      cases res <;> rfl
  rw [exec_request s c k f hc, submitFrame_takes s k f h, goes, readsOutside, reads]
  cases res with
  | error st => rfl
  | ok x =>
    rw [readOutcome]
    by_cases beyond : 33554432 < x.addr + x.len
    · rw [if_pos beyond]
      exact if_pos (decide_eq_true beyond)
    · rw [if_neg beyond]
      exact if_neg fun h => beyond (of_decide_eq_true h)

theorem readOutcome_inside {k : Kind} {x : Resolved} (inside : x.addr + x.len ≤ 33554432) :
    readOutcome s k f (.ok x) = .next (answerRead (requestOfFrame k f) f.port x (s.taken k f)) :=
  if_neg (Nat.not_lt.mpr inside)

theorem readOutcome_outside {k : Kind} {x : Resolved} (outside : 33554432 < x.addr + x.len) :
    readOutcome s k f (.ok x) = .fault .outsideArray := if_pos outside

theorem badLength_half {h : Half} (bad : h = 0 ∨ 256 < h.toNat) : badLength h.toNat = true := by
  unfold badLength
  rcases bad with rfl | long
  · rfl
  · rw [decide_eq_true long, Bool.or_true]

theorem badLength_false {n : Nat} (low : 1 ≤ n) (high : n ≤ 256) : badLength n = false := by
  simp [badLength]
  omega

variable (takes : s.takes .read f) (mode : s.mode = .normal ∨ s.mode = .degraded) (count : f.params.length = 7)
include takes mode count

theorem exec_readCurrent {v : Vol} {n : Nat} (named : f.volume = volByte v) (source : byteAt f.params 0 = 0xFF)
    (length : (halfAt f.params 5).toNat = n) (low : 1 ≤ n) (high : n ≤ 256) :
    exec (.read f) s = readOutcome s .read f (resolveCurrent f.port v (wordAt f.params 1).toNat n s) := by
  refine exec_reads rfl takes mode count (.inl ⟨rfl, ?_⟩)
  have current : readSource f.params = some .current := if_pos source
  have len : readLength (requestOfFrame .read f).params = n := length
  rw [resolveRead, show (requestOfFrame .read f).volume = volByte v from named, volIndex_volByte,
    show readSource (requestOfFrame .read f).params = some .current from current]
  dsimp only
  rw [len, badLength_false low high, if_neg (by decide), resolveCurrent, resolveCurrent, State.taken_vols]
  rfl

theorem exec_readView {v : Vol} {h : Handle} {n : Nat} (named : f.volume = volByte v) (source : byteAt f.params 0 = byteOf h.val)
    (length : (halfAt f.params 5).toNat = n) (low : 1 ≤ n) (high : n ≤ 256) :
    exec (.read f) s = readOutcome s .read f (resolveView f.port h v (wordAt f.params 1).toNat n s) := by
  refine exec_reads rfl takes mode count (.inl ⟨rfl, ?_⟩)
  have handle : readSource f.params = some (.handle h) := by
    unfold readSource
    rw [source]
    clear source
    revert h
    decide
  have len : readLength (requestOfFrame .read f).params = n := length
  rw [resolveRead, show (requestOfFrame .read f).volume = volByte v from named, volIndex_volByte,
    show readSource (requestOfFrame .read f).params = some (.handle h) from handle]
  dsimp only
  rw [len, badLength_false low high, if_neg (by decide), resolveView, resolveView, State.taken_vols, State.taken_views]
  rfl

end

/-- Settles O22: the checks of `resolveRead` and `resolveCurrent` in their order. -/
theorem readFromCurrent : Obligations.ReadFromCurrent := by
  intro f s takes mode count
  refine ⟨fun bad => ?_, fun v o n named source offset length low high => ?_⟩
  · refine exec_reads rfl takes mode count (.inl ⟨rfl, ?_⟩) (res := .error .badRequest)
    have volume : (requestOfFrame .read f).volume = f.volume := rfl
    have params : (requestOfFrame .read f).params = f.params := rfl
    rw [resolveRead, volume, params]
    rcases bad with high | ⟨unknown, notCurrent⟩ | empty
    · rw [volIndex_none _ high]
    · have malformed : readSource f.params = none := (if_neg notCurrent).trans (dif_neg (by omega))
      rw [malformed]
      cases volIndex f.volume <;> rfl
    · have bad : badLength (readLength f.params) = true := badLength_half empty
      cases volIndex f.volume with
      | none => rfl
      | some v =>
        cases readSource f.params with
        | none => rfl
        | some src => exact if_pos bad
  · rw [exec_readCurrent takes mode count named source length low high, offset, resolveCurrent]
    refine ⟨fun free => ?_, fun x used => ?_⟩
    · rw [free]
      rfl
    rw [used]
    dsimp only
    refine ⟨fun denied => ?_, fun reader none => ?_, fun sl reader active => ?_⟩
    · rw [if_pos denied]
      rfl
    · rw [if_neg (by rw [reader]; decide), none]
      rfl
    rw [if_neg (by rw [reader]; decide), active]
    dsimp only
    refine ⟨fun long => ?_, fun fits inside => ?_, fun fits outside => ?_⟩
    · rw [if_pos long]
      rfl
    · rw [if_neg (Nat.not_lt.mpr fits)]
      exact readOutcome_inside inside
    · rw [if_neg (Nat.not_lt.mpr fits)]
      exact readOutcome_outside outside

/-- Settles O23: the checks of `resolveView` in their order. -/
theorem readThroughView : Obligations.ReadThroughView := by
  intro f s v h o n takes mode count named source offset length low high
  rw [exec_readView takes mode count named source length low high, offset, resolveView]
  refine ⟨fun closed => ?_, fun w opened => ?_⟩
  · rw [closed]
    rfl
  rw [opened]
  dsimp only
  refine ⟨fun other => ?_, fun same long => ?_, fun x same fits used => ?_⟩
  · rw [if_pos other]
    rfl
  · rw [if_neg (not_not.mpr same), if_pos long]
    rfl
  rw [if_neg (not_not.mpr same), if_neg (Nat.not_lt.mpr fits), used]
  exact ⟨fun inside => readOutcome_inside inside, fun outside => readOutcome_outside outside⟩

section
variable (s : State) (v : Vol) (base o n : Nat)

/-- An ERASE or PROGRAM of the volume is in flight on a sector that the read touches (R75). -/
theorem State.busyOn_iff (low : 1 ≤ n) : s.busyOn v ((sectorsTouched o n).map (· + base)) = true
    ↔ ∃ e k, s.engine = some e ∧ e.op.vol = some v ∧ (o / 65536 ≤ k ∧ k ≤ (o + n - 1) / 65536)
      ∧ (e.op.kind = .erase ∨ e.op.kind = .program)
      ∧ (e.phase = .erasing (base + k) ∨ ∃ pg, e.phase = .programming (base + k) pg) := by
  have contains (m : Nat) : ((sectorsTouched o n).map (· + base)).contains m = true
      ↔ ∃ k, (o / 65536 ≤ k ∧ k ≤ (o + n - 1) / 65536) ∧ m = base + k := by
    rw [List.contains_iff_mem, List.mem_map]
    constructor
    · rintro ⟨k, touched, rfl⟩
      exact ⟨k, (mem_sectorsTouched o n k low).mp touched, Nat.add_comm k base⟩
    · rintro ⟨k, touched, rfl⟩
      exact ⟨k, (mem_sectorsTouched o n k low).mpr touched, Nat.add_comm k base⟩
  unfold State.busyOn
  cases busy : s.engine with
  | none => simp
  | some e =>
    simp only [Bool.and_eq_true, Bool.or_eq_true, beq_iff_eq]
    constructor
    · rintro ⟨⟨kind, vol⟩, sector⟩
      split at sector
      next m phase =>
        obtain ⟨k, touched, rfl⟩ := (contains m).mp sector
        exact ⟨e, k, rfl, vol, touched, kind, .inl phase⟩
      next m pg phase =>
        obtain ⟨k, touched, rfl⟩ := (contains m).mp sector
        exact ⟨e, k, rfl, vol, touched, kind, .inr ⟨pg, phase⟩⟩
      all_goals cases sector
    · rintro ⟨_, k, same, vol, touched, kind, phase⟩
      cases same
      refine ⟨⟨kind, vol⟩, ?_⟩
      have sector := (contains (base + k)).mpr ⟨k, touched, rfl⟩
      rcases phase with phase | ⟨pg, phase⟩ <;> rw [phase] <;> exact sector

end

/-- Settles O24: the checks of `resolveStaged` in their order. -/
theorem readStagedAnswers : Obligations.ReadStagedAnswers := by
  intro f s takes mode count
  have volume : (requestOfFrame .readStaged f).volume = f.volume := rfl
  refine ⟨fun bad => ?_, fun v o n named offset length low high => ?_⟩
  · refine exec_reads rfl takes mode count (.inr ⟨rfl, ?_⟩) (res := .error .badRequest)
    rw [resolveStaged, volume]
    rcases bad with high | empty
    · rw [volIndex_none _ high]
    · have bad : badLength (stagedLength (requestOfFrame .readStaged f).params) = true := badLength_half empty
      cases volIndex f.volume with
      | none => rfl
      | some v => exact if_pos bad
  · have resolved : ∀ {res}, resolveStaged (requestOfFrame .readStaged f) f.port (s.taken .readStaged f) = res →
        exec (.readStaged f) s = readOutcome s .readStaged f res := fun h => exec_reads rfl takes mode count (.inr ⟨rfl, h⟩)
    have off : stagedOffset (requestOfFrame .readStaged f).params = o := offset
    have len : stagedLength (requestOfFrame .readStaged f).params = n := length
    have engine (l : List Nat) : (s.taken .readStaged f).busyOn v l = s.busyOn v l := by rw [State.busyOn, State.taken_engine]; rfl
    have good : badLength n = false := badLength_false low high
    have resolve := resolved rfl
    rw [resolveStaged, volume, named, volIndex_volByte, off, len] at resolve
    dsimp only at resolve
    rw [good, if_neg (by decide), State.taken_heldClaim, State.taken_vols] at resolve
    rw [resolve]
    refine ⟨fun noClaim => ?_, fun i x holds used => ?_⟩
    · rw [noClaim]
      rfl
    rw [holds, used]
    dsimp only
    refine ⟨fun none => ?_, fun sl staging => ?_⟩
    · rw [none]
      rfl
    rw [staging]
    dsimp only
    have unknown : (sectorsTouched o n).any (fun i' => decide ((mapEntry ((s.taken .readStaged f).mapOf (some i)) i').state = .unknown))
        = true ↔ ∃ k, (o / 65536 ≤ k ∧ k ≤ (o + n - 1) / 65536) ∧ (mapEntry (s.mapOf (some i)) k).state = .unknown := by
      simp only [List.any_eq_true, mem_sectorsTouched _ _ _ low, decide_eq_true_eq, mapEntry_taken]
    rw [engine, show x.slotBytes = x.size * 65536 from rfl]
    refine ⟨fun long => ?_, fun fits some => ?_, fun fits known => ?_⟩
    · rw [if_pos long]
      rfl
    · rw [if_neg (Nat.not_lt.mpr fits), if_pos (unknown.mpr some)]
      rfl
    rw [if_neg (Nat.not_lt.mpr fits), if_neg (fun h => by obtain ⟨k, t, u⟩ := unknown.mp h; exact known k t u)]
    refine ⟨fun work => ?_, fun free inside => ?_, fun free outside => ?_⟩
    · rw [if_pos ((s.busyOn_iff v _ o n low).mpr work)]
      rfl
    · rw [if_neg (fun h => free ((s.busyOn_iff v _ o n low).mp h))]
      exact readOutcome_inside inside
    · rw [if_neg (fun h => free ((s.busyOn_iff v _ o n low).mp h))]
      exact readOutcome_outside outside

/-! ### OPEN_VIEW and CLOSE_VIEW (R31 to R33) -/

section
variable (s : State) (p : Port) (h : Handle)

theorem State.closedHandle_none (full : ∀ h : Handle, (s.views[p][h]).isSome = true) : s.closedHandle p = none :=
  (claimIxs_find_none _).mpr fun d => by rw [Option.isNone_eq_false_iff, full d]

theorem State.closedHandle_some (closed : s.views[p][h] = none) (lowest : ∀ h' < h, (s.views[p][h']).isSome = true) :
    s.closedHandle p = some h := by
  refine claimIxs_find _ h (by rw [closed]; rfl) fun d lt => ?_
  rw [Option.isNone_eq_false_iff]
  exact lowest d lt

theorem closeHandle_byteOf (b : Byte) (named : b = byteOf h.val) : closeHandle [b] = some h := by
  subst named
  revert h
  decide

end

theorem State.taken_viewCount (s : State) (k : Kind) (f : Submit) (v : Vol) (sl : Slot) :
    (s.taken k f).viewCount v sl = s.viewCount v sl := by
  rw [State.viewCount, State.openViews, State.taken_views]
  rfl

/-- Settles O25: the branches of `takeOpenView` and `takeCloseView`; a view that opens or closes moves one count by one. -/
theorem viewsOpenAndClose : Obligations.ViewsOpenAndClose := by
  intro f s mode
  refine ⟨fun takes params => ?_, fun b takes params => ?_⟩
  · have goes := exec_served (c := .openView f) rfl takes mode (by decide) (by rw [params]; rfl) (by decide)
    have opens : takeKind (requestOfFrame .openView f) f.port (s.taken .openView f)
        = takeOpenView (requestOfFrame .openView f) f.port (s.taken .openView f) := rfl
    have volume : (requestOfFrame .openView f).volume = f.volume := rfl
    rw [goes, opens, takeOpenView, volume, State.taken_vols]
    refine ⟨fun high => ?_, fun v named => ?_⟩
    · rw [volIndex_none _ high]
      rfl
    rw [named, volIndex_volByte]
    dsimp only
    refine ⟨fun free => ?_, fun x used => ?_⟩
    · rw [free]
      rfl
    rw [used]
    dsimp only
    refine ⟨fun deleting => ?_, fun stays denied => ?_, fun stays reader none => ?_, fun sl stays reader active => ?_⟩
    · rw [if_pos deleting]
      rfl
    all_goals rw [if_neg (by rw [stays]; decide)]
    · rw [if_pos denied]
      rfl
    all_goals rw [if_neg (by rw [reader]; decide)]
    · rw [none]
      rfl
    rw [active]
    dsimp only
    have views : (s.taken .openView f).closedHandle f.port = s.closedHandle f.port := by
      rw [State.closedHandle, State.taken_views]
      rfl
    rw [views]
    refine ⟨fun full => ?_, fun h closed lowest => ?_⟩
    · rw [s.closedHandle_none f.port full]
      rfl
    · rw [s.closedHandle_some f.port h closed lowest]
      refine ⟨_, rfl, ?_, ?_⟩
      · rw [State.setView, State.taken_views]
      · have moved := State.viewCount_setView (s.taken .openView f) f.port h
          (some { vol := v, slot := sl, gen := (x.slot sl).gen, len := (x.slot sl).len }) v sl
        rw [State.taken_views, closed, s.taken_viewCount] at moved
        simpa [viewWeight] using moved
  · have goes := exec_served (c := .closeView f) rfl takes mode (by decide) (by rw [params]; rfl) (by decide)
    have closes : takeKind (requestOfFrame .closeView f) f.port (s.taken .closeView f)
        = takeCloseView (requestOfFrame .closeView f) f.port (s.taken .closeView f) := rfl
    have bytes : (requestOfFrame .closeView f).params = [b] := params
    rw [goes, closes, takeCloseView, bytes, State.taken_views]
    refine ⟨fun high => ?_, fun h named => ?_⟩
    · rw [show closeHandle [b] = none from dif_neg (by change ¬b.toNat < 4; omega)]
      rfl
    rw [closeHandle_byteOf h b named]
    dsimp only
    refine ⟨fun closed => ?_, fun w opened => ?_⟩
    · rw [closed]
      rfl
    rw [opened]
    refine ⟨_, rfl, ?_, ?_⟩
    · rw [State.setView, State.taken_views]
    · have moved := State.viewCount_setView (s.taken .closeView f) f.port h none w.vol w.slot
      rw [State.taken_views, opened, s.taken_viewCount] at moved
      simpa [viewWeight] using moved.symm

end Sys2Proof.Machine
end

section
/-! Free sectors (R14, R109) and the device report (R109, R110, R181, section 10.5). -/

namespace Sys2Proof.Machine

/-! ### Runs of free sectors -/

/-- `n` free sectors from `b` on, within the sectors from `lo` up to `stop`. -/
def FreeRun (d : Directory) (lo stop b n : Nat) : Prop := lo ≤ b ∧ b + n ≤ stop ∧ ∀ i < n, freeSector d (b + i) = true

section
variable {d : Directory} {lo stop b n : Nat}

theorem freeSector_iff (k : Nat) : freeSector d k = true ↔ ∀ v : Vol, ∀ x ∈ d[v],
    ¬(x.baseA ≤ k ∧ k < x.baseA + x.size) ∧ ¬(x.baseB ≤ k ∧ k < x.baseB + x.size) := by
  have owns (x : Volume) : (!x.owns k) = true
      ↔ ¬(x.baseA ≤ k ∧ k < x.baseA + x.size) ∧ ¬(x.baseB ≤ k ∧ k < x.baseB + x.size) := by
    simp [Volume.owns]
    omega
  unfold freeSector
  rw [List.all_eq_true]
  constructor
  · intro all v x used
    have free := all d[v] (by simp)
    rw [show d[v] = some x from used] at free
    exact (owns x).mp free
  · intro all e mem
    obtain ⟨i, lt, rfl⟩ := List.mem_iff_getElem.mp mem
    rw [Vector.length_toList] at lt
    rw [Vector.getElem_toList]
    cases used : d[i] with
    | none => rfl
    | some x => exact (owns x).mpr (all ⟨i, lt⟩ x used)

theorem FreeRun_iff : FreeRun d lo stop b n ↔ lo ≤ b ∧ b + n ≤ stop ∧ ∀ i < n, ∀ v : Vol, ∀ x ∈ d[v],
    ¬(x.baseA ≤ b + i ∧ b + i < x.baseA + x.size) ∧ ¬(x.baseB ≤ b + i ∧ b + i < x.baseB + x.size) := by
  simp only [FreeRun, freeSector_iff]

/-! ### Placement (R14) -/

theorem allFree_iff : ((List.range n).all fun i => freeSector d (b + i)) = true ↔ ∀ i < n, freeSector d (b + i) = true := by
  simp

theorem firstRun_some {hi : Nat} : firstRun d lo hi n = some b
    ↔ FreeRun d lo (hi + 1) b n ∧ ∀ b' < b, ¬FreeRun d lo (hi + 1) b' n := by
  unfold firstRun
  rw [List.find?_map, Option.map_eq_some_iff]
  constructor
  · rintro ⟨a, found, rfl⟩
    obtain ⟨free, mem, first⟩ := List.find?_range_eq_some.mp found
    have short := List.mem_range.mp mem
    refine ⟨⟨by omega, by omega, allFree_iff.mp free⟩, fun b' lt ⟨low, high, free'⟩ => ?_⟩
    have before := first (b' - lo) (by omega)
    rw [Function.comp_apply, Nat.sub_add_cancel low, allFree_iff.mpr free'] at before
    exact absurd before (by decide)
  · rintro ⟨⟨low, high, free⟩, first⟩
    refine ⟨b - lo, List.find?_range_eq_some.mpr ⟨?_, List.mem_range.mpr (by omega), fun j lt => ?_⟩, Nat.sub_add_cancel low⟩
    · rw [Function.comp_apply, Nat.sub_add_cancel low]
      exact allFree_iff.mpr free
    · rw [Function.comp_apply, Bool.not_eq_true', ← Bool.not_eq_true, allFree_iff]
      exact fun free' => first (j + lo) (by omega) ⟨by omega, by omega, free'⟩

theorem firstRun_none {hi : Nat} : firstRun d lo hi n = none ↔ ∀ b, ¬FreeRun d lo (hi + 1) b n := by
  constructor
  · rintro none b ⟨low, high, free⟩
    have := List.find?_eq_none.mp none b (List.mem_map.mpr ⟨b - lo, List.mem_range.mpr (by omega), Nat.sub_add_cancel low⟩)
    exact this (allFree_iff.mpr free)
  · intro no
    refine List.find?_eq_none.mpr fun b mem free => ?_
    obtain ⟨a, short, rfl⟩ := List.mem_map.mp mem
    have short := List.mem_range.mp short
    exact no (a + lo) ⟨by omega, by omega, allFree_iff.mp free⟩

theorem place_some {a b : Nat} : place d n = some (a, b) ↔ firstRun d 1 255 n = some a ∧ firstRun d 257 511 n = some b := by
  unfold place
  cases firstRun d 1 255 n <;> cases firstRun d 257 511 n <;> simp

theorem place_none : place d n = none ↔ firstRun d 1 255 n = none ∨ firstRun d 257 511 n = none := by
  unfold place
  cases firstRun d 1 255 n <;> cases firstRun d 257 511 n <;> simp

end

/-- Settles O20: each base sector is found by `firstRun`. -/
theorem placementTakesTheLowestRuns : Obligations.PlacementTakesTheLowestRuns := by
  intro d n _ _
  refine ⟨fun a b => ?_, ?_⟩
  · rw [place_some, firstRun_some, firstRun_some]
    simp only [FreeRun_iff]
  · rw [place_none, firstRun_none, firstRun_none]
    simp only [FreeRun_iff]

/-! ### The longest run (R109) -/

section
variable {d : Directory} {lo : Nat}

/-- A scan up to `stop` keeps the longest run that ends there and the longest run of all. -/
structure Scanned (d : Directory) (lo stop : Nat) (acc : Nat × Nat) : Prop where
  ending : FreeRun d lo stop (stop - acc.1) acc.1
  endingMost : ∀ b m, FreeRun d lo stop b m → b + m = stop → m ≤ acc.1
  best : ∃ b, FreeRun d lo stop b acc.2
  most : ∀ b m, FreeRun d lo stop b m → m ≤ acc.2

theorem FreeRun.mono {stop b n : Nat} (h : FreeRun d lo stop b n) : FreeRun d lo (stop + 1) b n :=
  ⟨h.1, by have := h.2.1; omega, h.2.2⟩

theorem FreeRun.shorter {stop b n : Nat} (h : FreeRun d lo (stop + 1) b (n + 1)) (ends : b + (n + 1) = stop + 1) :
    FreeRun d lo stop b n ∧ freeSector d stop = true := by
  obtain ⟨low, -, free⟩ := h
  refine ⟨⟨low, by omega, fun i lt => free i (by omega)⟩, ?_⟩
  have last := free n (by omega)
  rwa [show b + n = stop by omega] at last

theorem scanned_start : Scanned d lo lo (0, 0) where
  ending := ⟨le_rfl, le_rfl, fun _ lt => absurd lt (Nat.not_lt_zero _)⟩
  endingMost b m run ends := by
    have := run.1
    simp only
    omega
  best := ⟨lo, le_rfl, le_rfl, fun _ lt => absurd lt (Nat.not_lt_zero _)⟩
  most b m run := by
    obtain ⟨low, high, -⟩ := run
    simp only
    omega

theorem Scanned.step {stop : Nat} {acc : Nat × Nat} (h : Scanned d lo stop acc) : Scanned d lo (stop + 1) (runStep d acc stop) := by
  obtain ⟨⟨low, high, free⟩, endingMost, ⟨b, best⟩, most⟩ := h
  have ending : FreeRun d lo (stop + 1) (stop + 1 - (runStep d acc stop).1) (runStep d acc stop).1 := by
    by_cases sector : freeSector d stop = true
    · rw [runStep, if_pos sector]
      refine ⟨by dsimp only; omega, by dsimp only; omega, fun i lt => ?_⟩
      change i < acc.1 + 1 at lt
      change freeSector d (stop + 1 - (acc.1 + 1) + i) = true
      rcases Nat.lt_succ_iff_lt_or_eq.mp lt with lt | rfl
      · have := free i lt
        rwa [show stop + 1 - (acc.1 + 1) + i = stop - acc.1 + i by omega]
      · rwa [show stop + 1 - (acc.1 + 1) + acc.1 = stop by omega]
    · rw [runStep, if_neg sector]
      exact ⟨by dsimp only; omega, by dsimp only; omega, fun _ lt => absurd lt (Nat.not_lt_zero _)⟩
  have endingMost' : ∀ b m, FreeRun d lo (stop + 1) b m → b + m = stop + 1 → m ≤ (runStep d acc stop).1 := by
    intro b m run ends
    cases m with
    | zero => exact Nat.zero_le _
    | succ m =>
      obtain ⟨before, sector⟩ := run.shorter ends
      rw [runStep, if_pos sector]
      exact Nat.succ_le_succ (endingMost b m before (by omega))
  refine ⟨ending, endingMost', ?_, fun b m run => ?_⟩
  · rcases max_choice (runStep d acc stop).1 acc.2 with e | e
    · exact ⟨_, by rw [show (runStep d acc stop).2 = (runStep d acc stop).1 from e]; exact ending⟩
    · exact ⟨b, by rw [show (runStep d acc stop).2 = acc.2 from e]; exact best.mono⟩
  · by_cases ends : b + m = stop + 1
    · exact (endingMost' b m run ends).trans (le_max_left _ _)
    · refine (most b m ⟨run.1, ?_, run.2.2⟩).trans (le_max_right _ _)
      have := run.2.1
      omega

theorem scanned (n : Nat) : Scanned d lo (lo + n) (((List.range n).map (· + lo)).foldl (runStep d) (0, 0)) := by
  induction n with
  | zero => exact scanned_start
  | succ n ih =>
    rw [List.range_succ, List.map_append, List.foldl_append, List.map_singleton, List.foldl_cons, List.foldl_nil, Nat.add_comm n lo]
    exact ih.step

theorem longestRun_spec {hi : Nat} (h : lo ≤ hi) : (∃ b, FreeRun d lo (hi + 1) b (longestRun d lo hi))
    ∧ ∀ b m, FreeRun d lo (hi + 1) b m → m ≤ longestRun d lo hi := by
  have all := scanned (d := d) (lo := lo) (hi + 1 - lo)
  rw [show lo + (hi + 1 - lo) = hi + 1 by omega] at all
  exact ⟨all.best, all.most⟩

end

/-! ### The device report (section 10.5) -/

section
variable (s : State)

theorem journalReport_some {j : Journal} (h : s.journal = some j) : journalReport s =
    [jsectorCode (some j.sector)] ++ word j.epoch ++ half (2048 - j.append) ++ half s.skipped := by
  simp only [journalReport, h]
  rfl

theorem journalReport_none (h : s.journal = none) : journalReport s = ([0] : List Byte) ++ word 0 ++ half 0 ++ half 0 := by
  simp only [journalReport, h]

theorem journalReport_length : (journalReport s).length = 9 := by
  cases h : s.journal with
  | none => rw [journalReport_none s h]; rfl
  | some j => rw [journalReport_some s h]; rfl

theorem flightReport_none (h : s.engine = none) : flightReport s = [0xFF, 0, 0, 0, 0] := by
  simp only [flightReport, h]

theorem flightReport_some {e : InFlight} (h : s.engine = some e) : flightReport s =
    [portField e.port, kindCode e.op.kind, (e.op.vol.map volByte).getD 0, phaseCode e.phase, byteOf e.suspends] := by
  simp only [flightReport, h]

theorem flightReport_length : (flightReport s).length = 5 := by
  cases h : s.engine with
  | none => rw [flightReport_none s h]; rfl
  | some e => rw [flightReport_some s h]; rfl

/-- The FIFO and run fields of the device report. -/
def fieldsReport : List Byte :=
  [byteOf s.fifos[0].length, byteOf s.fifos[1].length, byteOf s.fifos[2].length, byteOf s.fifos[3].length,
   byteOf (longestRun s.vols 1 255), byteOf (longestRun s.vols 257 511)]

theorem deviceReport_drop_journal : (deviceReport s).drop 6
    = journalReport s ++ ((if s.compactSlot then 1 else 0) :: (flightReport s ++ fieldsReport s)) := by
  simp [deviceReport, fieldsReport]

theorem deviceReport_drop_slot : (deviceReport s).drop 15
    = (if s.compactSlot then 1 else 0) :: (flightReport s ++ fieldsReport s) := by
  rw [show 15 = 6 + 9 from rfl, ← List.drop_drop, deviceReport_drop_journal, List.drop_left' (journalReport_length s)]

theorem deviceReport_drop_flight : (deviceReport s).drop 16 = flightReport s ++ fieldsReport s := by
  rw [show 16 = 15 + 1 from rfl, ← List.drop_drop, deviceReport_drop_slot]
  rfl

theorem deviceReport_drop_fields : (deviceReport s).drop 21 = fieldsReport s := by
  rw [show 21 = 16 + 5 from rfl, ← List.drop_drop, deviceReport_drop_flight, List.drop_left' (flightReport_length s)]

theorem deviceReport_length : (deviceReport s).length = 27 := by
  simp [deviceReport, journalReport_length, flightReport_length]

theorem deviceReport_taken (k : Kind) (f : Submit) : deviceReport (s.taken k f) = deviceReport s := by
  have journal : journalReport (s.taken k f) = journalReport s := by
    obtain ⟨cs, h, e⟩ := s.taken_field k f
    rw [e]
    rfl
  have flight : flightReport (s.taken k f) = flightReport s := by rw [flightReport, State.taken_engine]; rfl
  simp only [deviceReport, journal, flight, State.taken_mode, State.taken_prov, State.taken_values, State.taken_compactSlot,
    State.taken_fifos, State.taken_vols]

theorem longestRun_byte {d : Directory} {lo hi : Nat} (range : lo ≤ hi) (short : hi < lo + 255) :
    (byteOf (longestRun d lo hi)).toNat = longestRun d lo hi := by
  obtain ⟨⟨b, low, high, -⟩, -⟩ := longestRun_spec (d := d) range
  rw [byteOf, BitVec.toNat_ofNat]
  exact Nat.mod_eq_of_lt (by omega)

end

/-- Settles O11: the body is the device report of the part before the request. -/
theorem queryDeviceReports : Obligations.QueryDeviceReports := by
  intro f s takes params
  have answers : exec (.queryDevice f) s
      = .next ((s.taken .queryDevice f).push f.port (responseTo f .queryDevice .ok (deviceReport s))) := by
    have mode : modeRefusal .queryDevice s.mode = none := by
      have := takes.2.2.1
      revert this
      cases s.mode <;> decide
    rw [exec_takesKind (c := .queryDevice f) rfl takes mode (by rw [if_neg (by decide), params]; rfl) (by decide) (by decide),
      ← deviceReport_taken s .queryDevice f]
    rfl
  have journalAt (i : Nat) : byteAt (deviceReport s) (6 + i)
      = byteAt (journalReport s ++ ((if s.compactSlot then 1 else 0) :: (flightReport s ++ fieldsReport s))) i := by
    rw [← byteAt_drop, deviceReport_drop_journal]
  have flightAt (i : Nat) : byteAt (deviceReport s) (16 + i) = byteAt (flightReport s ++ fieldsReport s) i := by
    rw [← byteAt_drop, deviceReport_drop_flight]
  have fieldAt (i : Nat) : byteAt (deviceReport s) (21 + i) = byteAt (fieldsReport s) i := by
    rw [← byteAt_drop, deviceReport_drop_fields]
  have rest (n : Nat) : (deviceReport s).drop (6 + n)
      = (journalReport s ++ ((if s.compactSlot then 1 else 0) :: (flightReport s ++ fieldsReport s))).drop n := by
    rw [← List.drop_drop, deviceReport_drop_journal]
  refine ⟨deviceReport s, answers, deviceReport_length s, rfl, rfl, rfl, rfl, rfl, rfl, fun j current => ?_, fun none => ?_, ?_,
    fun idle => ?_, fun e busy => ?_, fun q => ?_, ?_, ?_⟩
  · rw [journalReport_some s current] at journalAt rest
    exact ⟨journalAt 0, wordAt_of_drop (rest 1), halfAt_of_drop (rest 5), halfAt_of_drop (rest 7)⟩
  · rw [journalReport_none s none] at journalAt rest
    exact ⟨journalAt 0, wordAt_of_drop (rest 1), halfAt_of_drop (rest 5), halfAt_of_drop (rest 7)⟩
  · rw [← byteAt_drop _ 15 0, deviceReport_drop_slot]
    rfl
  · rw [flightReport_none s idle] at flightAt
    exact ⟨flightAt 0, flightAt 1, flightAt 2, flightAt 3, flightAt 4⟩
  · rw [flightReport_some s busy] at flightAt
    refine ⟨(flightAt 0).trans ?_, flightAt 1, (flightAt 2).trans ?_, flightAt 3, flightAt 4⟩
    · cases port : e.port <;> simp [portField, byteAt]
    · cases vol : e.op.vol <;> simp [byteAt]
  · rw [fieldAt]
    match q with
    | 0 | 1 | 2 | 3 => rfl
  · rw [fieldAt 4, show byteAt (fieldsReport s) 4 = byteOf (longestRun s.vols 1 255) from rfl,
      longestRun_byte (by decide) (by decide)]
    simpa only [FreeRun_iff] using longestRun_spec (d := s.vols) (lo := 1) (hi := 255) (by decide)
  · rw [fieldAt 5, show byteAt (fieldsReport s) 5 = byteOf (longestRun s.vols 257 511) from rfl,
      longestRun_byte (by decide) (by decide)]
    simpa only [FreeRun_iff] using longestRun_spec (d := s.vols) (lo := 257) (hi := 511) (by decide)

end Sys2Proof.Machine
end

section
/-! The pick and the starts of operations (R13, R14, R16, R17, R19, R61, R66, R68, R72, R77, R82, R90 to R93, R115, R117, R120,
R131 to R133, R138, R140, R150, R151). -/

namespace Sys2Proof.Machine

/-! ### An operation that is picked at once (R86, R90) -/

/-- The part with an operation of a port just picked (R91, R92). -/
def State.pickedUp (t : State) (p : Port) (o : Op) : State := { t with rr := p, engine := some (flight (some p) o t.values) }

section
variable {t u : State} {p : Port} {o : Op} {st : Status} {body : List Byte} {m : Mode}

theorem startOp_kind (mode : t.mode ≠ .degraded) (held : t.claimHeld o.claim = true) : startOp o t = startKind o t := by
  rw [startOp, if_neg (fun h => mode h.1), held, if_neg (by decide)]

/-- A completion of an operation that no claim binds and no reset has marked (R103). -/
theorem State.finish_unbound {e : InFlight} {q : Port} (busy : t.engine = some e) (port : e.port = some q) (kept : e.discard = false)
    (free : e.op.claim = none) : t.finish st body
      = { t with engine := none }.push q { tag := e.op.tag, kind := e.op.kind, status := st, body := body } := by
  rw [t.finish_some busy, free]
  dsimp only
  rw [State.completionQueues, port, kept]
  rfl

/-- A completion of an operation that a HELD claim binds (R103). -/
theorem State.finish_bound {e : InFlight} {q : Port} {i : ClaimIx} {cl : Claim} (busy : t.engine = some e) (port : e.port = some q)
    (kept : e.discard = false) (bound : e.op.claim = some i) (entry : t.claims[i] = some cl) (held : cl.state = .held) :
    t.finish st body = { t with engine := none, claims := t.claims.set i (some { cl with pending := cl.pending - 1 }) }.push q
      { tag := e.op.tag, kind := e.op.kind, status := st, body := body } := by
  rw [t.finish_some busy, bound]
  refine (State.lowerClaim_held { t with hpi := t.completionQueues e st body, engine := none } entry held).trans ?_
  rw [State.completionQueues, port, kept]
  rfl

theorem State.engine_none (idle : t.engine = none) : ({ t with engine := none } : State) = t := by rw [← idle]

section
variable (idle : t.engine = none) (begun : t.mode ≠ .starting) (free : t.work = 0)
include idle begun free

theorem State.enqueue_runs (starts : startOp o (t.pickedUp p o) = .runs u) : t.enqueue p o = u := by
  refine (t.enqueue_idle p o idle begun free).trans ?_
  rw [show startOp o { t with rr := p, engine := some (flight (some p) o t.values) } = .runs u from starts]

theorem State.enqueue_ends (unbound : o.claim = none)
    (starts : startOp o (t.pickedUp p o) = .ends st body { t.pickedUp p o with mode := m }) : t.enqueue p o
      = { t with rr := p, mode := m }.push p { tag := o.tag, kind := o.kind, status := st, body := body } := by
  refine (t.enqueue_idle p o idle begun free).trans ?_
  rw [show startOp o { t with rr := p, engine := some (flight (some p) o t.values) }
    = .ends st body { t.pickedUp p o with mode := m } from starts]
  dsimp only
  rw [State.finish_unbound rfl rfl rfl unbound, ← State.engine_none (t := { t with rr := p, mode := m }) idle]
  rfl

end

/-- The claim that binds the operation counts it while it is pending (R39). -/
def State.bound (t : State) (i : ClaimIx) : State := t.onClaim i (fun cl => { cl with pending := cl.pending + 1 })

theorem State.bound_eq {i : ClaimIx} {cl : Claim} (entry : t.claims[i] = some cl) :
    t.bound i = { t with claims := t.claims.set i (some { cl with pending := cl.pending + 1 }) } := by
  rw [State.bound, State.onClaim, entry]
  rfl

section
variable {i : ClaimIx} {cl : Claim} (entry : t.claims[i] = some cl) (held : cl.state = .held)
include entry

theorem State.bound_claimHeld (bound : o.claim = some i) (held : cl.state = .held) :
    ((t.bound i).pickedUp p o).claimHeld o.claim = true := by
  rw [bound, t.bound_eq entry]
  simp [State.claimHeld, State.pickedUp, held]

theorem State.bound_mapEntry (n : Nat) : mapEntry (((t.bound i).pickedUp p o).mapOf (some i)) n = mapEntry (t.mapOf (some i)) n := by
  rw [t.bound_eq entry]
  simp [State.mapOf, State.pickedUp, entry]

/-- An operation that ends in the moment it is bound and picked leaves the claim as it was. -/
theorem State.enqueueBound_ends (idle : t.engine = none) (begun : t.mode ≠ .starting) (free : t.work = 0) (held : cl.state = .held)
    (bound : o.claim = some i)
    (starts : startOp o ((t.bound i).pickedUp p o) = .ends st body { (t.bound i).pickedUp p o with mode := m }) :
    (t.bound i).enqueue p o
      = { t with rr := p, mode := m }.push p { tag := o.tag, kind := o.kind, status := st, body := body } := by
  have lowered : (t.claims.set i (some { cl with pending := cl.pending + 1 })).set i
      (some { cl with pending := cl.pending + 1 - 1 }) = t.claims := by
    rw [Vector.set_set, Nat.add_sub_cancel]
    exact (congrArg (t.claims.set i) entry).symm.trans (Vector.set_self _ _)
  refine ((t.bound i).enqueue_idle p o idle begun free).trans ?_
  rw [show startOp o { t.bound i with rr := p, engine := some (flight (some p) o (t.bound i).values) }
    = .ends st body { (t.bound i).pickedUp p o with mode := m } from starts]
  dsimp only
  have entry' : ({ (t.bound i).pickedUp p o with mode := m } : State).claims[i] = some { cl with pending := cl.pending + 1 } := by
    rw [t.bound_eq entry]
    simp [State.pickedUp]
  rw [State.finish_bound rfl rfl rfl bound entry' held, ← State.engine_none (t := { t with rr := p, mode := m }) idle,
    t.bound_eq entry]
  dsimp only [State.pickedUp]
  rw [lowered]
  rfl

end

/-! ### The start of a record (R114, R115) -/

theorem beginRecord_inside {r : JRecord} {j : Journal} (journal : t.journal = some j) (inside : j.append < 2048) :
    beginRecord r t = .runs (t.begun j r) := by
  rw [beginRecord, journal]
  exact if_pos inside

theorem beginRecord_beyond {r : JRecord} {j : Journal} (journal : t.journal = some j) (beyond : ¬j.append < 2048) :
    beginRecord r t = .ends .arrayFault [] { t with mode := .degraded } := by
  rw [beginRecord, journal]
  exact if_neg beyond

end

/-! ### Administrative requests (R14, R16, R17, R19, R138, R140) -/

theorem byteOf_toNat (b : Byte) : byteOf b.toNat = b := BitVec.ofNat_toNat 8 b

section
variable {s : State} {k : Kind} {f : Submit} {v : Vol} {c : Instr} (hc : c.requestOf = some (k, f)) (h : s.takes k f)
  (mode : s.mode = .normal) (admin : inMask s.values.admin f.port = true) (params : adminParams k f.params = true)
  (named : f.volume = volByte v) (idle : s.engine = none) (free : s.work = 0)

/-- The part with an administrative request just picked. -/
def adminPicked (s : State) (k : Kind) (f : Submit) (v : Vol) : State := (s.taken k f).pickedUp f.port (adminOp k f v)

theorem State.taken_work (s : State) (k : Kind) (f : Submit) : (s.taken k f).work = s.work := by
  obtain ⟨cs, h, e⟩ := s.taken_field k f
  rw [e]
  rfl

theorem adminPicked_vols : (adminPicked s k f v).vols = s.vols := State.taken_vols s k f

theorem adminPicked_pinRefuses (x : Volume) : (adminPicked s k f v).pinRefuses x = (x.pinned && s.pinen) :=
  s.taken_pinRefuses k f x

theorem adminPicked_claimOf : (adminPicked s k f v).claimOf v = s.claimOf v := State.taken_claimOf s k f v

theorem adminPicked_viewCount (sl : Slot) : (adminPicked s k f v).viewCount v sl = s.viewCount v sl := s.taken_viewCount k f v sl

include mode in
theorem adminPicked_startOp : startOp (adminOp k f v) (adminPicked s k f v) = startKind (adminOp k f v) (adminPicked s k f v) := by
  refine startOp_kind ?_ rfl
  rw [adminPicked, State.pickedUp, State.taken_mode, mode]
  decide

include hc h mode admin params named idle free

/-- A request that fails its start check is answered in the moment it is taken. -/
theorem exec_admin_ends {st : Status} (starts : startKind (adminOp k f v) (adminPicked s k f v) = .ends st [] (adminPicked s k f v)) :
    exec c s = .next ({ s.taken k f with rr := f.port }.push f.port (responseTo f k st [])) := by
  rw [exec_admin hc h mode admin params named, State.enqueue_ends (m := (s.taken k f).mode) (by rwa [State.taken_engine])
    (by rw [State.taken_mode, mode]; decide) (by rwa [State.taken_work]) rfl ((adminPicked_startOp mode).trans starts)]
  rfl

/-- A request that passes begins its record, or loses it at once with the append point at 2,048. -/
theorem exec_admin_begins {j : Journal} {r : JRecord} {change : State → State} (journal : s.journal = some j)
    (starts : startKind (adminOp k f v) (adminPicked s k f v) = match beginRecord r (adminPicked s k f v) with
      | .runs u => .runs (change u)
      | .ends st body u => .ends st body u) :
    exec c s = .next (if j.append < 2048 then change ((adminPicked s k f v).begun j r)
      else { s.taken k f with rr := f.port, mode := .degraded }.push f.port (responseTo f k .arrayFault [])) := by
  have current : (adminPicked s k f v).journal = some j := (State.taken_journal s k f).trans journal
  have idle' : (s.taken k f).engine = none := by rwa [State.taken_engine]
  have begun' : (s.taken k f).mode ≠ .starting := by rw [State.taken_mode, mode]; decide
  have free' : (s.taken k f).work = 0 := by rwa [State.taken_work]
  rw [exec_admin hc h mode admin params named]
  by_cases inside : j.append < 2048
  · rw [beginRecord_inside current inside] at starts
    rw [if_pos inside, State.enqueue_runs idle' begun' free' ((adminPicked_startOp mode).trans starts)]
  · rw [beginRecord_beyond current inside] at starts
    rw [if_neg inside, State.enqueue_ends idle' begun' free' rfl ((adminPicked_startOp mode).trans starts)]
    rfl

end

theorem adminPicked_begun {s : State} {k : Kind} {f : Submit} {v : Vol} (j : Journal) (r : JRecord) :
    (adminPicked s k f v).begun j r = { s.taken k f with
      rr := f.port
      vols := s.vols
      engine := some { flight (some f.port) (adminOp k f v) s.values with
        phase := .journaling j.sector, entry := some { seq := BitVec.ofNat 32 j.seq, content := r } } } := by
  rw [← State.taken_vols s k f, ← State.taken_values s k f]
  rfl

theorem beginRecord_id (r : JRecord) (t : State) : beginRecord r t = match beginRecord r t with
    | .runs u => .runs (id u)
    | .ends st body u => .ends st body u := by
  cases beginRecord r t <;> rfl

/-- Settles O16: the start checks of each kind pass, and `beginRecord` decides the rest. -/
theorem adminRequestsStart : Obligations.AdminRequestsStart := by
  intro c k f s v j hc takes mode admin params named idle free journal
  have begins {r : JRecord} (starts : startKind (adminOp k f v) (adminPicked s k f v) = beginRecord r (adminPicked s k f v)) :=
    exec_admin_begins hc takes mode admin params named idle free (change := id) journal (starts.trans (beginRecord_id r _))
  simp only [adminPicked_begun, id] at begins
  have vols := adminPicked_vols (s := s) (k := k) (f := f) (v := v)
  refine ⟨fun kind unused a b found => ?_, fun x used => ⟨fun kind unpinned unclaimed unseenA unseenB => ?_, fun kind unpinned => ?_,
    fun kind => ?_, fun kind unpinned => ?_⟩⟩
  · have starts : startKind (adminOp k f v) (adminPicked s k f v) = beginRecord (.create f.volume (halfAt f.params 0)
        (byteAt f.params 2) (BitVec.ofNat 16 a) (BitVec.ofNat 16 b) (byteAt f.params 3) (byteAt f.params 4)) (adminPicked s k f v) := by
      subst kind
      change startCreate _ v _ = _
      rw [startCreate, vols, unused, if_neg (by decide), show createSize (adminOp .createVolume f v).params = (byteAt f.params 2).toNat from rfl,
        found, named]
      dsimp only
      rw [byteOf_toNat]
      rfl
    exact begins starts
  · have starts : startKind (adminOp k f v) (adminPicked s k f v) = match beginRecord (.delete f.volume) (adminPicked s k f v) with
        | .runs u => .runs (u.onVol v (fun y => { y with deleting := true }))
        | .ends st body u => .ends st body u := by
      subst kind
      change startDelete v _ = _
      rw [startDelete, vols, used]
      dsimp only
      rw [adminPicked_pinRefuses, unpinned, if_neg (by decide), adminPicked_claimOf, unclaimed, adminPicked_viewCount, unseenA,
        adminPicked_viewCount, unseenB, if_neg (by decide), named]
      cases beginRecord (.delete (volByte v)) (adminPicked s .deleteVolume f v) <;> rfl
    have := exec_admin_begins hc takes mode admin params named idle free journal starts
    rw [this, adminPicked_begun, State.onVol]
    dsimp only
    rw [used]
    rfl
  · refine begins ?_
    subst kind
    change startAccess _ v _ = _
    rw [startAccess, vols, used]
    dsimp only
    rw [adminPicked_pinRefuses, unpinned, if_neg (by decide), named]
    rfl
  · refine begins ?_
    subst kind
    change startPin v _ = _
    rw [startPin, vols, used, if_neg (by simp), named]
  · refine begins ?_
    subst kind
    change startUnpin v _ = _
    rw [startUnpin, vols, used]
    dsimp only
    rw [adminPicked_pinRefuses, unpinned, if_neg (by decide), named]

/-! ### Staging requests (R13, R61, R66, R68, R72, R77, R82) -/

/-- The part with a staging request bound to its claim and just picked. -/
def stagingPicked (s : State) (k : Kind) (f : Submit) (v : Vol) (i : ClaimIx) : State :=
  ((s.taken k f).bound i).pickedUp f.port (stagingOp k f v i)

section
variable {s : State} {k : Kind} {f : Submit} {v : Vol} {i : ClaimIx} {c : Instr}

theorem State.bound_frame (t : State) (i : ClaimIx) : ∃ cs, t.bound i = { t with claims := cs } := ⟨_, rfl⟩

theorem stagingPicked_vols : (stagingPicked s k f v i).vols = s.vols := State.taken_vols s k f

theorem stagingPicked_journal : (stagingPicked s k f v i).journal = s.journal := State.taken_journal s k f

theorem stagingPicked_viewCount (w : Vol) (sl : Slot) : (stagingPicked s k f v i).viewCount w sl = s.viewCount w sl :=
  s.taken_viewCount k f w sl

theorem State.taken_entry (s : State) (k : Kind) (f : Submit) {i : ClaimIx} {cl : Claim} (entry : s.claims[i] = some cl) :
    ∃ x : Claim, (s.taken k f).claims[i] = some x ∧ x.state = cl.state := by
  rcases s.taken_claims k f i with same | ⟨x, before, after⟩
  · exact ⟨cl, same.trans entry, rfl⟩
  · obtain rfl : x = cl := Option.some.inj (before.symm.trans entry)
    exact ⟨_, after, rfl⟩

variable (hc : c.requestOf = some (k, f)) (h : s.takes k f) (mode : s.mode = .normal) (named : f.volume = volByte v)
  (params : stagingParams k f.params = true) (holds : s.heldClaim f.port v = some i)

include holds in
theorem stagingPicked_mapEntry (n : Nat) :
    mapEntry ((stagingPicked s k f v i).mapOf (some i)) n = mapEntry (s.mapOf (some i)) n := by
  obtain ⟨cl, entry, -⟩ := s.heldClaim_some f.port v i holds
  obtain ⟨x, after, -⟩ := s.taken_entry k f entry
  rw [stagingPicked, State.bound_mapEntry after, mapEntry_taken]

include mode holds in
theorem stagingPicked_startOp :
    startOp (stagingOp k f v i) (stagingPicked s k f v i) = startKind (stagingOp k f v i) (stagingPicked s k f v i) := by
  obtain ⟨cl, entry, -, -, held⟩ := s.heldClaim_some f.port v i holds
  obtain ⟨x, after, same⟩ := s.taken_entry k f entry
  refine startOp_kind ?_ (State.bound_claimHeld after rfl (same.trans held))
  rw [show (stagingPicked s k f v i).mode = (s.taken k f).mode from rfl, State.taken_mode, mode]
  decide

include hc h mode named params holds

theorem exec_staging_enqueues : exec c s = .next (((s.taken k f).bound i).enqueue f.port (stagingOp k f v i)) := by
  have passes : modeRefusal k s.mode = none := by
    have kind := stagingParams_kind params
    rw [mode]
    revert kind
    cases k <;> decide
  rw [exec_staging hc h passes params named, holds]
  rfl

variable (idle : s.engine = none) (free : s.work = 0)
include idle free

/-- A staging request that fails its start check leaves its claim as it was (R93). -/
theorem exec_staging_ends {st : Status} {body : List Byte} {m : Mode}
    (starts : startKind (stagingOp k f v i) (stagingPicked s k f v i) = .ends st body { stagingPicked s k f v i with mode := m }) :
    exec c s = .next ({ s.taken k f with rr := f.port, mode := m }.push f.port (responseTo f k st body)) := by
  obtain ⟨cl, entry, -, -, held⟩ := s.heldClaim_some f.port v i holds
  obtain ⟨x, after, same⟩ := s.taken_entry k f entry
  rw [exec_staging_enqueues hc h mode named params holds, State.enqueueBound_ends after (by rwa [State.taken_engine])
    (by rw [State.taken_mode, mode]; decide) (by rwa [State.taken_work]) (same.trans held) rfl
    ((stagingPicked_startOp mode holds).trans starts)]
  rfl

theorem exec_staging_runs {u : State} (starts : startKind (stagingOp k f v i) (stagingPicked s k f v i) = .runs u) :
    exec c s = .next u := by
  rw [exec_staging_enqueues hc h mode named params holds, State.enqueue_runs
    (show ((s.taken k f).bound i).engine = none by rw [← idle]; exact State.taken_engine s k f)
    (show ((s.taken k f).bound i).mode ≠ .starting by
      rw [show ((s.taken k f).bound i).mode = (s.taken k f).mode from rfl, State.taken_mode, mode]; decide)
    ((State.taken_work s k f).trans free) ((stagingPicked_startOp mode holds).trans starts)]

/-- A staging request that enters a phase without a record. -/
theorem exec_staging_enters {ph : Phase}
    (starts : startKind (stagingOp k f v i) (stagingPicked s k f v i) = .runs ((stagingPicked s k f v i).enter ph)) :
    exec c s = .next { (s.taken k f).onClaim i (fun y => { y with pending := y.pending + 1 }) with
      rr := f.port, engine := some { flight (some f.port) (stagingOp k f v i) s.values with phase := ph, entry := none } } := by
  rw [exec_staging_runs hc h mode named params holds idle free starts, ← State.taken_values s k f]
  rfl

/-- A staging request that passes begins its record, or loses it at once with the append point at 2,048. -/
theorem exec_staging_begins {j : Journal} {r : JRecord} (journal : s.journal = some j)
    (starts : startKind (stagingOp k f v i) (stagingPicked s k f v i) = beginRecord r (stagingPicked s k f v i)) :
    exec c s = .next (if j.append < 2048 then { (s.taken k f).onClaim i (fun y => { y with pending := y.pending + 1 }) with
      rr := f.port, engine := some { flight (some f.port) (stagingOp k f v i) s.values with
        phase := .journaling j.sector, entry := some { seq := BitVec.ofNat 32 j.seq, content := r } } }
      else { s.taken k f with rr := f.port, mode := .degraded }.push f.port (responseTo f k .arrayFault [])) := by
  have current : (stagingPicked s k f v i).journal = some j := stagingPicked_journal.trans journal
  by_cases inside : j.append < 2048
  · rw [beginRecord_inside current inside] at starts
    rw [if_pos inside, exec_staging_runs hc h mode named params holds idle free starts, ← State.taken_values s k f]
    rfl
  · rw [beginRecord_beyond current inside] at starts
    rw [if_neg inside, exec_staging_ends hc h mode named params holds idle free starts]

end

section
variable {s : State} {f : Submit} {v : Vol} {i : ClaimIx} {x : Volume} {sl : Slot} (holds : s.heldClaim f.port v = some i)
  (used : s.vols[v] = some x) (staging : x.slotIn .staging = some sl)
include holds used staging

/-- The start checks of a PROGRAM (R72). -/
theorem startKind_program : startKind (stagingOp .program f v i) (stagingPicked s .program f v i) =
    if x.size * 65536 < (wordAt f.params 0).toNat + (halfAt f.params 4).toNat then
      .ends .range [] (stagingPicked s .program f v i)
    else if (mapEntry (s.mapOf (some i)) ((wordAt f.params 0).toNat / 65536)).state = .unknown then
      .ends .notErased [] (stagingPicked s .program f v i)
    else if (wordAt f.params 0).toNat % 65536 / 256 < (mapEntry (s.mapOf (some i)) ((wordAt f.params 0).toNat / 65536)).ptr then
      .ends .outOfOrder (half (mapEntry (s.mapOf (some i)) ((wordAt f.params 0).toNat / 65536)).ptr) (stagingPicked s .program f v i)
    else .runs ((stagingPicked s .program f v i).enter (.programming (x.base sl + (wordAt f.params 0).toNat / 65536)
      ((wordAt f.params 0).toNat % 65536 / 256))) := by
  have same : mapEntry ((stagingPicked s .program f v i).mapOf (stagingOp .program f v i).claim)
      (programSectorIx (stagingOp .program f v i).params)
        = mapEntry (s.mapOf (some i)) ((wordAt f.params 0).toNat / 65536) := stagingPicked_mapEntry holds _
  change startProgram _ v _ = _
  rw [startProgram, stagingPicked_vols, used]
  dsimp only
  rw [staging]
  dsimp only
  rw [same]
  rfl

/-- The start checks of a COMMIT (R77). -/
theorem startKind_commit : startKind (stagingOp .commit f v i) (stagingPicked s .commit f v i) =
    if (wordAt f.params 0).toNat = 0 ∨ x.size * 65536 < (wordAt f.params 0).toNat then
      .ends .range [] (stagingPicked s .commit f v i)
    else if x.genCounter = 4294967295 then .ends .genLimit [] (stagingPicked s .commit f v i)
    else match lowestUnknown (s.mapOf (some i)) (((wordAt f.params 0).toNat - 1) / 65536 + 1) with
      | some n => .ends .incomplete [byteOf n] (stagingPicked s .commit f v i)
      | none => .runs ((stagingPicked s .commit f v i).enter .verifying) := by
  have same : lowestUnknown ((stagingPicked s .commit f v i).mapOf (stagingOp .commit f v i).claim)
      (((wordAt f.params 0).toNat - 1) / 65536 + 1)
        = lowestUnknown (s.mapOf (some i)) (((wordAt f.params 0).toNat - 1) / 65536 + 1) := by
    unfold lowestUnknown
    refine List.find?_congr fun n _ => ?_
    exact congrArg (fun m : MapEntry => decide (m.state = .unknown)) (stagingPicked_mapEntry holds n)
  change startCommit _ v _ = _
  rw [startCommit, stagingPicked_vols, used]
  dsimp only
  rw [staging, ← same]
  rfl

end

theorem lowestUnknown_none {m : Option (List MapEntry)} {n : Nat} :
    lowestUnknown m n = none ↔ ∀ i < n, (mapEntry m i).state ≠ .unknown := by
  simp [lowestUnknown]

theorem lowestUnknown_some {m : Option (List MapEntry)} {n i : Nat} (inside : i < n) (unknown : (mapEntry m i).state = .unknown)
    (lowest : ∀ l < i, (mapEntry m l).state ≠ .unknown) : lowestUnknown m n = some i := by
  refine List.find?_range_eq_some.mpr ⟨decide_eq_true unknown, List.mem_range.mpr inside, fun l lt => ?_⟩
  simpa using lowest l lt

theorem Volume.target_eq {x : Volume} {sl : Slot} (opposite : (x.slotIn .active = some .a ∧ sl = .b)
    ∨ (x.slotIn .active = some .b ∧ sl = .a) ∨ (x.slotIn .active = none ∧ sl = .a)) : x.target = sl := by
  unfold Volume.target
  rcases opposite with ⟨active, rfl⟩ | ⟨active, rfl⟩ | ⟨active, rfl⟩ <;> rw [active] <;> rfl

/-- Settles O17: the start checks of each kind pass. -/
theorem stagingRequestsStart : Obligations.StagingRequestsStart := by
  intro c k f s v i x hc takes mode named params holds used idle free
  have vols := stagingPicked_vols (s := s) (k := k) (f := f) (v := v) (i := i)
  refine ⟨fun j journal noStaging => ⟨fun sl kind unseen opposite => ?_, fun kind previous => ?_⟩,
    fun sl staging => ⟨fun kind inside => ?_, fun m kind inside entry known reached => ?_, fun kind low high young complete => ?_⟩⟩
  · refine exec_staging_begins hc takes mode named params holds idle free journal ?_
    subst kind
    change startStage v _ = _
    rw [startStage, vols, used]
    dsimp only
    rw [noStaging, if_neg (by decide), Volume.target_eq opposite, stagingPicked_viewCount, unseen, if_neg (by decide), named]
  · refine exec_staging_begins hc takes mode named params holds idle free journal ?_
    subst kind
    change startRollback v _ = _
    rw [startRollback, vols, used]
    dsimp only
    rw [noStaging, if_neg (by decide), if_neg (by rw [Option.isNone_iff_eq_none, ← Option.not_isSome_iff_eq_none, previous]; decide), named]
  · refine exec_staging_enters hc takes mode named params holds idle free ?_
    subst kind
    change startErase _ v _ = _
    rw [startErase, vols, used]
    dsimp only
    rw [staging]
    exact if_neg (Nat.not_le.mpr inside)
  · refine exec_staging_enters hc takes mode named params holds idle free ?_
    subst kind entry
    rw [startKind_program holds used staging]
    exact (if_neg (Nat.not_lt.mpr inside)).trans ((if_neg known).trans (if_neg (Nat.not_lt.mpr reached)))
  · refine exec_staging_enters hc takes mode named params holds idle free ?_
    subst kind
    rw [startKind_commit holds used staging]
    refine (if_neg (by omega)).trans ((if_neg young).trans ?_)
    rw [lowestUnknown_none.mpr fun n lt => complete n (Nat.le_of_lt_succ lt)]

/-- Settles O18: FORMAT and PROVISION pass their start checks. -/
theorem formatAndProvisionStart : Obligations.FormatAndProvisionStart := by
  intro c k f s hc takes idle free
  have idle' : (s.taken k f).engine = none := by rwa [State.taken_engine]
  have free' : (s.taken k f).work = 0 := (State.taken_work s k f).trans free
  have picked (ph : Phase) : ((s.taken k f).pickedUp f.port (plainOp k f)).enter ph = { s.taken k f with
      rr := f.port, engine := some { flight (some f.port) (plainOp k f) s.values with phase := ph } } := by
    rw [← State.taken_values s k f]
    rfl
  have begun : (s.taken k f).mode ≠ .starting := by rw [State.taken_mode]; exact takes.2.2.1
  refine ⟨fun kind mode admin params => ?_, fun kind mode params blank => ?_⟩
  · rw [exec_format hc takes kind mode admin params]
    have starts : startOp (plainOp k f) ((s.taken k f).pickedUp f.port (plainOp k f))
        = .runs (((s.taken k f).pickedUp f.port (plainOp k f)).enter (.erasing 0)) := by
      have mode' : ((s.taken k f).pickedUp f.port (plainOp k f)).mode = .unformatted := (State.taken_mode s k f).trans mode
      rw [startOp_kind (by rw [mode']; decide) rfl]
      subst kind
      change startFormat _ = _
      rw [startFormat, if_pos mode']
      rfl
    rw [State.enqueue_runs idle' begun free' starts, picked]
    rfl
  · rw [exec_provision hc takes kind mode params blank]
    have starts : startOp (plainOp k f) ((s.taken k f).pickedUp f.port (plainOp k f))
        = .runs (((s.taken k f).pickedUp f.port (plainOp k f)).enter .rowWriting) := by
      have mode' : ((s.taken k f).pickedUp f.port (plainOp k f)).mode = s.mode := State.taken_mode s k f
      have blank' : ((s.taken k f).pickedUp f.port (plainOp k f)).prov = .blank := (State.taken_prov s k f).trans blank
      rw [startOp_kind (by rw [mode']; rcases mode with m | m <;> rw [m] <;> decide) rfl]
      subst kind
      change startProvision _ = _
      rw [startProvision, if_pos blank']
    rw [State.enqueue_runs idle' begun free' starts, picked]
    rfl

end Sys2Proof.Machine
end

section
/-! Start checks that fail, and the order of the arbiter (R61, R90 to R93, R117, R120, R131, R132, R151). -/

namespace Sys2Proof.Machine

/-! ### Start checks that fail (R93) -/

section
variable {s : State} {k : Kind} {f : Submit} {v : Vol} {st : Status}

/-- The start checks that an administrative request can fail. -/
theorem adminStart_ends (kind : k ∈ [Kind.createVolume, .deleteVolume, .setAccess, .pin, .unpin])
    (fails : (k = .createVolume ∧ (s.vols[v]).isSome = true ∧ st = .inUse)
      ∨ (k = .createVolume ∧ s.vols[v] = none ∧ place s.vols (byteAt f.params 2).toNat = none ∧ st = .noSpace)
      ∨ (k ≠ .createVolume ∧ s.vols[v] = none ∧ st = .noVolume)
      ∨ (∃ x, s.vols[v] = some x ∧ k ∈ [Kind.deleteVolume, .setAccess, .unpin] ∧ (x.pinned && s.pinen) = true ∧ st = .pinned)
      ∨ (∃ x, s.vols[v] = some x ∧ k = .deleteVolume ∧ (x.pinned && s.pinen) = false
          ∧ (s.claimOf v ≠ none ∨ 0 < s.viewCount v .a ∨ 0 < s.viewCount v .b) ∧ st = .inUse)) :
    startKind (adminOp k f v) (adminPicked s k f v) = .ends st [] (adminPicked s k f v) := by
  have vols := adminPicked_vols (s := s) (k := k) (f := f) (v := v)
  rcases fails with ⟨rfl, used, rfl⟩ | ⟨rfl, unused, noRun, rfl⟩ | ⟨other, unused, rfl⟩ | ⟨x, used, kinds, pinned, rfl⟩
    | ⟨x, used, rfl, unpinned, busy, rfl⟩
  · change startCreate _ v _ = _
    rw [startCreate, vols, if_pos used]
  · change startCreate _ v _ = _
    rw [startCreate, vols, unused, if_neg (by decide),
      show place s.vols (createSize (adminOp .createVolume f v).params) = none from noRun]
  · cases k with
    | createVolume => exact absurd rfl other
    | deleteVolume =>
      change startDelete v _ = _
      rw [startDelete, vols, unused]
    | setAccess =>
      change startAccess _ v _ = _
      rw [startAccess, vols, unused]
    | pin =>
      change startPin v _ = _
      rw [startPin, vols, unused]
      rfl
    | unpin =>
      change startUnpin v _ = _
      rw [startUnpin, vols, unused]
    | _ => exact absurd kind (by decide)
  · cases k with
    | deleteVolume =>
      change startDelete v _ = _
      rw [startDelete, vols, used]
      dsimp only
      rw [adminPicked_pinRefuses, if_pos pinned]
    | setAccess =>
      change startAccess _ v _ = _
      rw [startAccess, vols, used]
      dsimp only
      rw [adminPicked_pinRefuses, if_pos pinned]
    | unpin =>
      change startUnpin v _ = _
      rw [startUnpin, vols, used]
      dsimp only
      rw [adminPicked_pinRefuses, if_pos pinned]
    | _ => exact absurd kinds (by decide)
  · change startDelete v _ = _
    rw [startDelete, vols, used]
    dsimp only
    rw [adminPicked_pinRefuses, unpinned, if_neg (by decide), adminPicked_claimOf, adminPicked_viewCount, adminPicked_viewCount,
      if_pos (by rwa [Option.isSome_iff_ne_none])]

variable {i : ClaimIx} {x : Volume} (used : s.vols[v] = some x)
include used

theorem stageStart_ends (fails : ((x.slotIn .staging).isSome = true ∧ st = .stagingOpen)
      ∨ (x.slotIn .staging = none ∧ 0 < s.viewCount v x.target ∧ st = .slotHeld)) :
    startKind (stagingOp .beginStage f v i) (stagingPicked s .beginStage f v i) = .ends st [] (stagingPicked s .beginStage f v i) := by
  change startStage v _ = _
  rw [startStage, stagingPicked_vols, used]
  dsimp only
  rcases fails with ⟨staging, rfl⟩ | ⟨none, viewed, rfl⟩
  · rw [if_pos staging]
  · rw [none, if_neg (by decide), stagingPicked_viewCount, if_pos viewed]

theorem rollbackStart_ends (fails : ((x.slotIn .staging).isSome = true ∧ st = .stagingOpen)
      ∨ (x.slotIn .staging = none ∧ x.slotIn .previous = none ∧ st = .noPrevious)) :
    startKind (stagingOp .rollback f v i) (stagingPicked s .rollback f v i) = .ends st [] (stagingPicked s .rollback f v i) := by
  change startRollback v _ = _
  rw [startRollback, stagingPicked_vols, used]
  dsimp only
  rcases fails with ⟨staging, rfl⟩ | ⟨none, noPrevious, rfl⟩
  · rw [if_pos staging]
  · rw [none, if_neg (by decide), noPrevious]
    rfl

theorem noStagingStart_ends (kind : k ∈ [Kind.erase, .program, .commit]) (none : x.slotIn .staging = none) :
    startKind (stagingOp k f v i) (stagingPicked s k f v i) = .ends .noStaging [] (stagingPicked s k f v i) := by
  cases k with
  | erase =>
    change startErase _ v _ = _
    rw [startErase, stagingPicked_vols, used]
    dsimp only
    rw [none]
  | program =>
    change startProgram _ v _ = _
    rw [startProgram, stagingPicked_vols, used]
    dsimp only
    rw [none]
  | commit =>
    change startCommit _ v _ = _
    rw [startCommit, stagingPicked_vols, used]
    dsimp only
    rw [none]
    rfl
  | _ => exact absurd kind (by decide)

theorem eraseStart_ends {sl : Slot} (staging : x.slotIn .staging = some sl) (outside : x.size ≤ (byteAt f.params 0).toNat) :
    startKind (stagingOp .erase f v i) (stagingPicked s .erase f v i) = .ends .range [] (stagingPicked s .erase f v i) := by
  change startErase _ v _ = _
  rw [startErase, stagingPicked_vols, used]
  dsimp only
  rw [staging]
  exact if_pos outside

end

/-- Settles O19: a failing start check ends the request in the moment it is picked. -/
theorem startChecksRefuse : Obligations.StartChecksRefuse := by
  intro c k f s v st body hc takes mode named idle free fails
  rcases fails with ⟨admin, params, rfl, fails⟩ | ⟨i, x, params, holds, used, fails⟩
  · exact exec_admin_ends hc takes mode admin params named idle free (adminStart_ends (adminParams_kind params) fails)
  · have normal : (stagingPicked s k f v i).mode = s.mode := State.taken_mode s k f
    have ends (starts : startKind (stagingOp k f v i) (stagingPicked s k f v i) = .ends st body (stagingPicked s k f v i)) :
        exec c s = .next ({ s.taken k f with rr := f.port }.push f.port (responseTo f k st body)) := by
      have := exec_staging_ends hc takes mode named params holds idle free (m := (stagingPicked s k f v i).mode) starts
      rw [normal, ← State.taken_mode s k f] at this
      exact this
    rcases fails with ⟨kind, staging, rfl, rfl⟩ | ⟨rfl, none, viewed, rfl, rfl⟩ | ⟨rfl, none, noPrevious, rfl, rfl⟩
      | ⟨kind, none, rfl, rfl⟩ | ⟨rfl, staging, outside, rfl, rfl⟩ | ⟨rfl, staging, outside, rfl, rfl⟩
      | ⟨m, rfl, staging, inside, rfl, fails⟩ | ⟨rfl, staging, outside, rfl, rfl⟩ | ⟨rfl, staging, low, high, fails⟩
    · rcases List.mem_cons.mp kind with rfl | kind
      · exact ends (stageStart_ends used (.inl ⟨staging, rfl⟩))
      · obtain rfl := List.mem_singleton.mp kind
        exact ends (rollbackStart_ends used (.inl ⟨staging, rfl⟩))
    · exact ends (stageStart_ends used (.inr ⟨none, viewed, rfl⟩))
    · exact ends (rollbackStart_ends used (.inr ⟨none, noPrevious, rfl⟩))
    · exact ends (noStagingStart_ends used kind none)
    · obtain ⟨sl, staging⟩ := Option.isSome_iff_exists.mp staging
      exact ends (eraseStart_ends used staging outside)
    · obtain ⟨sl, staging⟩ := Option.isSome_iff_exists.mp staging
      refine ends ?_
      rw [startKind_program holds used staging, if_pos outside]
    · obtain ⟨sl, staging⟩ := Option.isSome_iff_exists.mp staging
      refine ends ?_
      rw [startKind_program holds used staging, if_neg (Nat.not_lt.mpr inside)]
      rcases fails with ⟨unknown, rfl, rfl⟩ | ⟨known, early, rfl, rfl⟩
      · rw [if_pos unknown]
      · rw [if_neg known, if_pos early]
    · obtain ⟨sl, staging⟩ := Option.isSome_iff_exists.mp staging
      refine ends ?_
      rw [startKind_commit holds used staging, if_pos outside]
    · obtain ⟨sl, staging⟩ := Option.isSome_iff_exists.mp staging
      refine ends ?_
      rw [startKind_commit holds used staging, if_neg (by omega)]
      rcases fails with ⟨old, rfl, rfl⟩ | ⟨n, young, inside, unknown, lowest, rfl, rfl⟩
      · rw [if_pos old]
      · rw [if_neg young, lowestUnknown_some (Nat.lt_succ_of_le inside) unknown lowest]

/-! ### The pick (R90, R91) -/

section
variable (s : State)

theorem State.takePick_compact (slot : s.compactSlot = true) : s.takePick
    = some (compactOp, { s with compactSlot := false, engine := some (flight none compactOp s.values) }) := if_pos slot

theorem State.takePick_fifo (slot : s.compactSlot = false) {p : Port} {op : Op} {rest : List Op} (head : s.fifos[p] = op :: rest)
    (first : s.scan.find? (fun q => !s.fifos[q].isEmpty) = some p) : s.takePick
      = some (op, { s.setFifo p rest with rr := p, engine := some (flight (some p) op s.values) }) := by
  rw [State.takePick, slot, if_neg (by decide), first]
  dsimp only
  rw [head]

/-- The scan finds the first FIFO with work after the pointer (R91). -/
theorem State.scan_first {n : Fin 4} {op : Op} {rest : List Op} (head : s.fifos[s.rr + 1 + n] = op :: rest)
    (empty : ∀ m : Fin 4, m < n → s.fifos[s.rr + 1 + m] = []) :
    s.scan.find? (fun q => !s.fifos[q].isEmpty) = some (s.rr + 1 + n) := by
  have order : s.scan = [s.rr + 1 + 0, s.rr + 1 + 1, s.rr + 1 + 2, s.rr + 1 + 3] := by
    have all : ∀ r : Port, [r + 1, r + 2, r + 3, r] = [r + 1 + 0, r + 1 + 1, r + 1 + 2, r + 1 + 3] := by decide
    exact all s.rr
  have here : (!s.fifos[s.rr + 1 + n].isEmpty) = true := by rw [head]; rfl
  have before (m : Fin 4) (lt : m < n) : (!s.fifos[s.rr + 1 + m].isEmpty) = false := by rw [empty m lt]; rfl
  rw [order]
  match n, here, before with
  | 0, here, _ => simp only [List.find?_cons, here]
  | 1, here, before => simp only [List.find?_cons, here, before 0 (by decide)]
  | 2, here, before => simp only [List.find?_cons, here, before 0 (by decide), before 1 (by decide)]
  | 3, here, before => simp only [List.find?_cons, here, before 0 (by decide), before 1 (by decide), before 2 (by decide)]

theorem State.takePick_idle (slot : s.compactSlot = false) (empty : ∀ p : Port, s.fifos[p] = []) : s.takePick = none := by
  have none : s.scan.find? (fun q => !s.fifos[q].isEmpty) = none := by
    refine List.find?_eq_none.mpr fun q _ => ?_
    rw [empty q]
    decide
  rw [State.takePick, slot, if_neg (by decide), none]

theorem State.work_empty (slot : s.compactSlot = false) (empty : ∀ p : Port, s.fifos[p] = []) : s.work = 0 := by
  have lengths (p : Port) : s.fifos[p].length = 0 := by rw [empty p]; rfl
  have h0 : s.fifos[0].length = 0 := lengths 0
  have h1 : s.fifos[1].length = 0 := lengths 1
  have h2 : s.fifos[2].length = 0 := lengths 2
  have h3 : s.fifos[3].length = 0 := lengths 3
  rw [State.work, slot, if_neg (by decide)]
  omega

variable {s} {op : Op} {t : State} (idle : s.engine = none) (begun : s.mode ≠ .starting) (picked : s.takePick = some (op, t))
include idle begun picked

theorem State.pick_picked : s.pick = match startOp op t with
    | .runs u => u
    | .ends st body u => pickUpTo t.work (u.finish st body) := by
  have work := State.takePick_work picked
  rw [State.pick, if_neg (by rw [idle]; simpa using begun), ← work, pickUpTo, picked] <;> rfl

theorem State.pick_runs {u : State} (starts : startOp op t = .runs u) : s.pick = u := by
  rw [State.pick_picked idle begun picked, starts]

/-- An operation that ends at its start lets the arbiter pick again among what waits (R93). -/
theorem State.pick_ends {st : Status} {body : List Byte} {u : State} (starts : startOp op t = .ends st body u) :
    s.pick = (u.finish st body).pick := by
  obtain ⟨fs, b, rr, e, frame⟩ := s.takePick_frame op t picked
  have mode : (u.finish st body).mode ≠ .starting := by
    obtain ⟨d, ws, cs, q, finished, -⟩ := u.finish_frame st body
    rw [finished]
    rcases startOp_ends starts with rfl | rfl
    · rw [frame]; exact begun
    · exact fun h => nomatch h
  have work : (u.finish st body).work = t.work := by
    obtain ⟨d, ws, cs, q, finished, -⟩ := u.finish_frame st body
    rw [finished]
    rcases startOp_ends starts with rfl | rfl <;> rfl
  rw [State.pick_picked idle begun picked, starts]
  dsimp only
  rw [State.pick, if_neg (by rw [State.finish_engine]; simpa using mode), work]

end

theorem State.claimHeld_iff (s : State) (c : Option ClaimIx) :
    s.claimHeld c = true ↔ ∀ i ∈ c, ∃ cl ∈ s.claims[i], cl.state = .held := by
  cases c with
  | none => simp [State.claimHeld]
  | some i =>
    cases entry : s.claims[i] with
    | none =>
      refine ⟨fun held => ?_, fun held => ?_⟩
      · simp only [State.claimHeld, entry] at held
        cases held
      · obtain ⟨cl, mem, -⟩ := held i rfl
        rw [entry] at mem
        cases mem
    | some cl =>
      simp only [State.claimHeld, entry, beq_iff_eq]
      refine ⟨fun held j mem => ?_, fun held => ?_⟩
      · cases mem
        exact ⟨cl, entry, held⟩
      · obtain ⟨_, mem, held⟩ := held i rfl
        rw [entry] at mem
        cases mem
        exact held

theorem stopsDegraded_iff (k : Kind) : stopsDegraded k = true ↔ k ∈ [Kind.createVolume, .deleteVolume, .setAccess, .pin, .unpin,
    .beginStage, .commit, .rollback] := by
  cases k <;> decide

/-- Settles O35: `takePick` chooses, `startOp` checks, and `pick` goes on until an operation runs or no work is left. -/
theorem pickOrder : Obligations.PickOrder := by
  intro s
  refine ⟨s.takePick_compact, fun n op rest slot head empty => s.takePick_fifo slot head (s.scan_first head empty),
    fun slot empty => ⟨s.takePick_idle slot empty, s.pick_idle (s.work_empty slot empty)⟩, fun idle begun op t picked =>
    ⟨fun u starts => State.pick_runs idle begun picked starts, fun st body u starts => State.pick_ends idle begun picked starts,
      fun stopped => ?_, fun notStopped notHeld => ?_, fun held => ?_⟩, fun no => if_pos no⟩
  all_goals
    obtain ⟨fs, b, rr, e, frame⟩ := s.takePick_frame op t picked
    have mode : t.mode = s.mode := by rw [frame]
    have prov : t.prov = s.prov := by rw [frame]
    have journal : t.journal = s.journal := by rw [frame]
    have claims : t.claimHeld op.claim = s.claimHeld op.claim := by rw [frame]; rfl
  · obtain ⟨degraded, kind⟩ := stopped
    exact State.pick_ends idle begun picked (if_pos ⟨mode.trans degraded, (stopsDegraded_iff op.kind).mpr kind⟩)
  · refine State.pick_ends idle begun picked ((if_neg ?_).trans (if_pos ?_))
    · rintro ⟨degraded, stops⟩
      exact notStopped ⟨mode.symm.trans degraded, (stopsDegraded_iff op.kind).mp stops⟩
    · rw [claims, ← Bool.not_eq_true, State.claimHeld_iff]
      exact notHeld
  · have start (others : stopsDegraded op.kind = false) : startOp op t = startKind op t := by
      rw [startOp, if_neg (by rw [others]; simp), claims, (s.claimHeld_iff op.claim).mpr held, if_neg (by decide)]
    refine ⟨fun kind wrong => ?_, fun kind right => ?_, fun kind done => ?_, fun kind blank => ?_, fun j kind normal current => ?_,
      fun kind other => ?_⟩
    · refine State.pick_ends idle begun picked ((start (by rw [kind]; rfl)).trans ?_)
      rw [startKind, kind]
      exact if_neg (mode.symm ▸ wrong)
    · refine State.pick_runs idle begun picked ((start (by rw [kind]; rfl)).trans ?_)
      rw [startKind, kind]
      exact if_pos (mode.trans right)
    · refine State.pick_ends idle begun picked ((start (by rw [kind]; rfl)).trans ?_)
      rw [startKind, kind]
      exact if_neg (prov.symm ▸ done)
    · refine State.pick_runs idle begun picked ((start (by rw [kind]; rfl)).trans ?_)
      rw [startKind, kind]
      exact if_pos (prov.trans blank)
    · have sector : jsectorNumber j.sector.other = if j.sector = .j0 then 256 else 0 := by cases j.sector <;> rfl
      have erases : startCompact t = .runs (t.enter (.erasing (jsectorNumber j.sector.other))) := by
        rw [startCompact, journal, current]
        exact if_pos (mode.trans normal)
      rw [← sector]
      refine State.pick_runs idle begun picked ((start (by rw [kind]; rfl)).trans ?_)
      rw [startKind, kind]
      exact erases
    · refine State.pick_ends idle begun picked ((start (by rw [kind]; rfl)).trans ?_)
      rw [startKind, kind]
      change startCompact t = _
      rw [startCompact]
      cases t.journal with
      | none => rfl
      | some j => exact if_neg (mode.symm ▸ other)

end Sys2Proof.Machine
end

section
/-! The ends of array work, of records in a sector of their own, of row writes and of leases (R2, R52, R53, R69, R73, R74, R78,
R79, R94, R95, R114, R115, R117 to R120, R133, R147, R148, R151, R153, R183). -/

namespace Sys2Proof.Machine

section
variable {s : State} {e : InFlight}

theorem State.flightIs_eq {k : Kind} (busy : s.engine = some e) (kind : e.op.kind = k) : s.flightIs k = some e := by
  simp only [State.flightIs, busy, kind, if_true]

theorem State.onFlight_eq (busy : s.engine = some e) (f : InFlight → InFlight) : s.onFlight f = { s with engine := some (f e) } := by
  rw [State.onFlight, busy]
  rfl

theorem State.onClaim_eq {c : ClaimIx} {cl : Claim} (entry : s.claims[c] = some cl) (f : Claim → Claim) :
    s.onClaim c f = { s with claims := s.claims.set c (some (f cl)) } := by
  rw [State.onClaim, entry]
  rfl

theorem State.setMapEntry_eq {c : ClaimIx} {cl : Claim} {map : List MapEntry} (entry : s.claims[c] = some cl)
    (mapped : cl.map = some map) (i : Nat) (m : MapEntry) : s.setMapEntry (some c) i m
      = { s with claims := s.claims.set c (some { cl with map := some (map.set i m) }) } := by
  rw [State.setMapEntry, State.onClaim_eq entry, mapped]
  rfl

end

/-! ### ERASE, PROGRAM and the verify of a COMMIT -/

theorem pageBase_eq (n pg : Nat) : pageBase n pg = n * 65536 + pg * 256 := by
  simp only [pageBase, sectorBase, Config.sectorBytes, Config.pageBytes]

theorem Volume.address_eq (x : Volume) (sl : Slot) (o : Nat) : x.address sl o = x.base sl * 65536 + o := by
  simp only [Volume.address, sectorBase, Config.sectorBytes]

theorem arrayBytes_eq : Config.arrayBytes = 33554432 := by simp only [Config.arrayBytes]

/-- Settles O36: the map entry of the claim follows the array. -/
theorem erasesAndProgramsEnd : Obligations.ErasesAndProgramsEnd := by
  intro s e c cl map busy bound entry mapped
  have marked (st : Store) (i : Nat) (m : MapEntry) : { s with store := st }.setMapEntry (some c) i m
      = { s with store := st, claims := s.claims.set c (some { cl with map := some (map.set i m) }) } :=
    State.setMapEntry_eq (s := { s with store := st }) entry mapped i m
  refine ⟨fun n b kind phase inside params => ?_, fun n pg kind phase inside => ?_⟩
  · have ends (ok : Bool) : exec (.eraseCompletion ok) s = .next (eraseEnds ok e n s) := by
      change execEraseCompletion ok s = _
      rw [execEraseCompletion, State.flightIs_eq busy kind]
      dsimp only
      rw [phase]
      exact if_pos inside
    have index : eraseSectorIx e.op.params = b.toNat := by rw [params]; rfl
    rw [ends, ends, eraseEnds, eraseEnds, index, bound, byteOf_toNat]
    dsimp only
    rw [if_pos rfl, if_neg (by decide), marked, marked, State.complete, State.complete]
    exact ⟨rfl, rfl⟩
  · have ends (ok : Bool) : exec (.programCompletion ok) s = .next (programEnds ok e n pg s) := by
      change execProgramCompletion ok s = _
      rw [execProgramCompletion, State.flightIs_eq busy kind]
      dsimp only
      rw [phase]
      dsimp only
      rw [pageBase_eq, arrayBytes_eq, if_pos inside]
    rw [ends, ends, programEnds, programEnds, bound, pageBase_eq]
    dsimp only
    rw [if_pos rfl, if_neg (by decide), marked, marked, State.complete, State.complete]
    exact ⟨rfl, rfl⟩

/-- Settles O37: the CRC-32 of the staging slot's bytes decides, and then `beginRecord`. -/
theorem commitVerifyEnds : Obligations.CommitVerifyEnds := by
  intro s e v x sl len busy kind vol phase used staging length inside
  have staged : s.stagedBy e = some (v, x, sl) := by simp only [State.stagedBy, vol, used, staging]
  have ends : exec .commitVerifyEnd s = .next (verifyEnds e v x sl s) := by
    change execCommitVerifyEnd s = _
    rw [execCommitVerifyEnd, State.flightIs_eq busy kind]
    dsimp only
    rw [phase]
    dsimp only
    rw [staged]
    dsimp only
    rw [show commitLength e.op.params = len from length, Volume.address_eq, arrayBytes_eq, if_pos inside]
  have bytes : crc32 (s.store.readBytes (x.address sl 0) (commitLength e.op.params))
      = crc32 ((List.range len).map (fun o => s.store.read (x.base sl * 65536 + o))) := by
    rw [Store.readBytes_eq, show commitLength e.op.params = len from length, Volume.address_eq, Nat.add_zero]
  have word : BitVec.ofNat 32 (commitLength e.op.params) = wordAt e.op.params 0 := BitVec.ofNat_toNat 32 _
  rw [ends, verifyEnds, bytes, show commitCrc e.op.params = wordAt e.op.params 4 from rfl]
  dsimp only
  refine ⟨fun wrong => ?_, fun j right journal room => ?_, fun j right journal full => ?_⟩
  · rw [if_pos wrong]
    rfl
  · rw [if_neg (not_not.mpr right), beginRecord_inside journal room, word]
    dsimp only
    rw [State.begun, State.onFlight_eq busy]
  · rw [if_neg (not_not.mpr right), beginRecord_beyond journal (Nat.not_lt.mpr full)]
    rfl

/-! ### A journal entry program that fails (R115, R120, R133) -/

section
variable {s : State} {e : InFlight}

theorem execJournalWriteFault_current {sector : JSector} {j : Journal} (busy : s.engine = some e) (phase : e.phase = .journaling sector)
    (own : e.own = none) (journal : s.journal = some j) (inside : j.append < 2048) :
    exec .journalWriteFault s = .next (currentFaults e j s) := by
  change execJournalWriteFault s = _
  rw [execJournalWriteFault, busy]
  dsimp only
  rw [phase]
  dsimp only
  rw [own]
  dsimp only
  rw [journal]
  exact if_pos inside

theorem execJournalWriteFault_own {sector : JSector} {o : OwnSector} (busy : s.engine = some e) (phase : e.phase = .journaling sector)
    (own : e.own = some o) (inside : o.pos < 2048) : exec .journalWriteFault s = .next (ownFaults e sector o s) := by
  change execJournalWriteFault s = _
  rw [execJournalWriteFault, busy]
  dsimp only
  rw [phase]
  dsimp only
  rw [own]
  exact if_pos inside

end

/-- Settles O40: the position is passed over, and the number of tries and the end of the sector decide whether the record is lost. -/
theorem journalWriteFaults : Obligations.JournalWriteFaults := by
  intro s e sector busy phase
  refine ⟨fun j own journal inside => ?_, fun o own inside => ?_⟩
  · rw [execJournalWriteFault_current busy phase own journal inside, currentFaults]
    dsimp only
    refine ⟨fun few room => ?_, fun last other => ?_, fun v last kind vol => ?_⟩
    · have again : ¬(Config.maxTries ≤ e.tries + 1 ∨ Config.positions ≤ j.append + 1) := by
        simp only [Config.maxTries, Config.positions]
        omega
      rw [if_neg again, State.countTry, State.onFlight_eq
        (s := { s with store := s.store.spoilPosition j.sector j.append, journal := some { j with append := j.append + 1 }
                       skipped := countSkip s.skipped }) busy]
      rfl
    · have lost : Config.maxTries ≤ e.tries + 1 ∨ Config.positions ≤ j.append + 1 := by
        simp only [Config.maxTries, Config.positions]
        omega
      rw [if_pos lost, loseRecord, clearDeleting, if_neg other, if_neg other]
      rfl
    · have lost : Config.maxTries ≤ e.tries + 1 ∨ Config.positions ≤ j.append + 1 := by
        simp only [Config.maxTries, Config.positions]
        omega
      rw [if_pos lost, loseRecord, clearDeleting, if_pos kind, if_pos kind, forVolume, vol]
      rfl
  · rw [execJournalWriteFault_own busy phase own inside, ownFaults]
    dsimp only
    refine ⟨fun few room => ?_, fun last kind => ?_, fun last kind => ?_⟩
    · have again : ¬(Config.maxTries ≤ e.tries + 1 ∨ Config.positions ≤ o.pos + 1) := by
        simp only [Config.maxTries, Config.positions]
        omega
      rw [if_neg again, State.onFlight_eq
        (s := { s with store := s.store.spoilPosition sector o.pos, skipped := countSkip s.skipped }) busy]
      rfl
    all_goals
      have lost : Config.maxTries ≤ e.tries + 1 ∨ Config.positions ≤ o.pos + 1 := by
        simp only [Config.maxTries, Config.positions]
        omega
      rw [if_pos lost, loseOwn]
    · rw [if_pos kind]
      rfl
    · rw [if_neg (by rw [kind]; decide)]
      rfl

/-! ### COMPACT and FORMAT (R117 to R120, R133) -/

section
variable {s : State} {e : InFlight} {k : Kind} {sector : JSector} {en : JEntry} {o : OwnSector}

theorem State.ownUnder_eq (busy : s.engine = some e) (kind : e.op.kind = k) (phase : e.phase = .journaling sector)
    (entry : e.entry = some en) (own : e.own = some o) : s.ownUnder k = some (sector, en, o) := by
  simp only [State.ownUnder, State.flightIs_eq busy kind, phase, entry, own]

theorem ownCompletes_advances {which : JRecord → Bool} {item : SnapItem} {rest : List SnapItem}
    (under : s.ownUnder k = some (sector, en, o)) (todo : o.todo = item :: rest) (named : which en.content = true)
    (inside : o.pos < 2048) : ownCompletes k which s = .next (ownAdvances sector en o item rest s) := by
  rw [ownCompletes, under]
  dsimp only
  rw [todo]
  dsimp only
  rw [if_pos named]
  exact if_pos inside

theorem ownAdvances_eq {item : SnapItem} {rest : List SnapItem} (busy : s.engine = some e) : ownAdvances sector en o item rest s
    = { s with
        store := s.store.program (positionBase sector o.pos) (entryBytes en)
        engine := some { e with
          entry := some { seq := BitVec.ofNat 32 (o.seq + 1), content := itemRecord s.vols (o.written + 1) item }
          tries := 0
          own := some { o with pos := o.pos + 1, seq := o.seq + 1, written := o.written + 1, todo := rest } } } :=
  State.onFlight_eq (s := { s with store := s.store.program (positionBase sector o.pos) (entryBytes en) }) busy _

theorem isSnapEnd_iff (r : JRecord) : isSnapEnd r = true ↔ ∃ n, r = .snapEnd n := by
  cases r <;> simp [isSnapEnd]

theorem positionBase_eq (sector : JSector) (pos : Nat) :
    positionBase sector pos = (if sector = .j0 then 0 else 16777216) + pos * 32 := by
  cases sector <;> rfl

end

/-- Settles O41: each phase of a COMPACT hands on to the next. -/
theorem compactRuns : Obligations.CompactRuns := by
  intro s e busy kind
  refine ⟨fun n j phase journal => ?_, fun sector en o phase entry own inside => ?_⟩
  · have ends (ok : Bool) : exec (.compactEraseEnd ok) s = if ok then
          .next ({ s with store := s.store.eraseSector n }.beginOwn j.sector.other (nextEpoch j.epoch) (snapshotItems s.vols))
        else .next ({ s with store := s.store.spoilSector n, mode := .degraded }.complete .done []) := by
      change execCompactEraseEnd ok s = _
      rw [execCompactEraseEnd, State.flightIs_eq busy kind, journal]
      dsimp only
      rw [phase]
    have other : j.sector.other = if j.sector = .j0 then .j1 else .j0 := by cases j.sector <;> rfl
    refine ⟨?_, ?_⟩
    · rw [ends, if_pos rfl, State.beginOwn, State.onFlight_eq (s := { s with store := s.store.eraseSector n }) busy, other]
      rfl
    · rw [ends, if_neg (by decide)]
      rfl
  · have under := State.ownUnder_eq busy kind phase entry own
    refine ⟨fun item rest todo other => ?_, fun n fin => ?_⟩
    · have named : (!isSnapEnd en.content) = true := by
        rw [Bool.not_eq_true', ← Bool.not_eq_true, isSnapEnd_iff]
        rintro ⟨n, fin⟩
        exact other n fin
      refine (ownCompletes_advances (which := fun r => !isSnapEnd r) under todo named inside).trans ?_
      rw [ownAdvances_eq busy, positionBase_eq]
    · change execCompactSnapEndCompletes s = _
      rw [execCompactSnapEndCompletes, under]
      dsimp only
      rw [if_pos ((isSnapEnd_iff en.content).mpr ⟨n, fin⟩), if_pos (show o.pos < Config.positions from inside), ownSwitches,
        positionBase_eq]
      rfl

/-- Settles O42: each phase of a FORMAT hands on to the next. -/
theorem formatRuns : Obligations.FormatRuns := by
  intro s e busy kind
  have ends (ok : Bool) (n : Nat) (phase : e.phase = .erasing n) : exec (.formatEraseEnd ok) s = if ok then
        .next (formatErased n s)
      else .next ({ s with store := s.store.spoilSector n }.complete .arrayFault []) := by
    change execFormatEraseEnd ok s = _
    rw [execFormatEraseEnd, State.flightIs_eq busy kind]
    dsimp only
    rw [phase]
  refine ⟨fun phase => ?_, fun phase => ?_, fun n phase => ?_, fun en o phase entry own inside => ?_⟩
  · rw [ends true 0 phase, if_pos rfl, formatErased]
    dsimp only
    rw [if_pos (show 0 = jsectorNumber .j0 from rfl), State.enter, State.onFlight_eq (s := { s with store := s.store.eraseSector 0 }) busy]
    rfl
  · rw [ends true 256 phase, if_pos rfl, formatErased]
    dsimp only
    rw [if_neg (by decide), State.beginOwn, State.onFlight_eq (s := { s with store := s.store.eraseSector 256, skipped := 0 }) busy]
    rfl
  · rw [ends false n phase, if_neg (by decide)]
    rfl
  · have under := State.ownUnder_eq busy kind phase entry own
    have base : positionBase .j0 o.pos = o.pos * 32 := by rw [positionBase_eq, if_pos rfl, Nat.zero_add]
    refine ⟨fun epoch header todo => ?_, fun n fin => ?_⟩
    · refine (ownCompletes_advances (which := isHeader) under todo (by rw [header]; rfl) inside).trans ?_
      rw [ownAdvances_eq busy, base]
      rfl
    · change execFormatSnapEndCompletes s = _
      rw [execFormatSnapEndCompletes, under]
      dsimp only
      rw [if_pos ((isSnapEnd_iff en.content).mpr ⟨n, fin⟩), if_pos (show o.pos < Config.positions from inside), ownSwitches, base]
      rfl

/-! ### The row write of a PROVISION (R147, R148, R151, R153, R183) -/

/-- The four parameters that R150 accepts derive FROZEN. -/
theorem deriveProv_frozen {a l eb pb : Byte} (params : provisionParams [a, l, eb, pb] = true) :
    deriveProv (.bytes a l eb pb (crc32 [a, l, eb, pb])) = .frozen := by
  have range : 1 ≤ a.toNat ∧ a.toNat ≤ 15 ∧ 1 ≤ l.toNat ∧ eb.toNat ≤ 16 ∧ pb.toNat ≤ 4 := by
    simpa [provisionParams, byteAt, and_assoc] using params
  have notBlank : a ≠ 0xFF := by
    rintro rfl
    exact absurd range.2.1 (by decide)
  rw [deriveProv, if_neg (fun h => notBlank h.1), if_pos ⟨rfl, range⟩]

/-- Settles O43: the row, and what follows from it. -/
theorem rowWritesEnd : Obligations.RowWritesEnd := by
  intro s e a l eb pb busy kind phase params
  have ends (ok : Bool) : exec (.rowWriteEnd ok) s = if ok then
        .next ((s.setRow (provisionedRow e.op.params) .frozen).complete .done (provisionBody e.op.params))
      else .next ((s.setRow .torn .damaged).complete .arrayFault []) := by
    change execRowWriteEnd ok s = _
    rw [execRowWriteEnd, State.flightIs_eq busy kind]
    dsimp only
    rw [phase]
  refine ⟨?_, ?_, deriveProv_frozen, rfl⟩
  · rw [ends, if_pos rfl, params]
    rfl
  · rw [ends, if_neg (by decide)]
    rfl

/-! ### Leases (R52, R53) -/

theorem Claim.runs_iff (cl : Claim) : cl.runs = true ↔ cl.state = .held ∧ cl.pending = 0 := by
  simp [Claim.runs]

/-- Settles O44: a paused lease stays, and a running one goes down or ends its claim. -/
theorem leasesRunDown : Obligations.LeasesRunDown := by
  intro s c
  have unit : exec (.leaseUnitEnd c) s = execLeaseUnitEnd c s := rfl
  have expiry : exec (.leaseExpiry c) s = execLeaseExpiry c s := rfl
  rw [unit, expiry, execLeaseUnitEnd, execLeaseExpiry]
  refine ⟨fun free => ?_, fun cl entry => ?_⟩
  · rw [free]
    exact ⟨rfl, rfl⟩
  rw [entry]
  dsimp only
  refine ⟨fun paused => ?_, fun held idle long => ?_, fun held idle short => ?_⟩
  · have stays : ¬cl.runs = true := by
      rw [Claim.runs_iff]
      rintro ⟨held, idle⟩
      rcases paused with revoking | pending
      · rw [held] at revoking; cases revoking
      · omega
    rw [if_neg stays, if_neg (fun h => stays h.1)]
    exact ⟨rfl, rfl⟩
  · have runs := (Claim.runs_iff cl).mpr ⟨held, idle⟩
    rw [if_pos runs, if_neg (Nat.not_le.mpr long), if_neg (fun h => Nat.not_le.mpr long h.2)]
    exact ⟨rfl, rfl⟩
  · have runs := (Claim.runs_iff cl).mpr ⟨held, idle⟩
    rw [if_pos runs, if_pos short, if_pos ⟨runs, short⟩, State.expire, State.onClaim_eq entry]
    exact ⟨rfl, rfl⟩

end Sys2Proof.Machine
end

section
/-! The completion of the journal entries of the directory-changing kinds (R8 to R11, R16, R18 to R20, R66, R79, R82, R114,
R138 to R140). -/

namespace Sys2Proof.Machine

/-! ### What an entry adds beyond its record -/

section
variable {s : State} {e : InFlight} {v : Vol} {en : JEntry} {j : Journal} {x : Volume}

/-- The completion of an entry whose record meets the conditions of R124. -/
theorem entryCompletes_effect {k : Kind} {after : InFlight → State → State} {body : InFlight → State → List Byte} {r : JRecord}
    {z y : Option Volume} (writes : s.writes k e v en j) (kind : k ≠ .compact) (content : en.content = r)
    (named : volIndex (recordVol r) = some v) (before : s.vols[v] = z) (effect : Effect r z y) :
    entryCompletes k after body s = .next (((after e (s.recorded en j (s.vols.set v y))).finish .done
      (body e (s.recorded en j (s.vols.set v y)))).pick) :=
  entryCompletes_recorded s k e v en j _ after body writes kind 
    (content ▸ applyRecord_of_effect named (before ▸ effect))

theorem State.recorded_vols (y : Option Volume) : (s.recorded en j (s.vols.set v y)).vols[v] = y := by
  simp only [State.recorded, directory_set_get, if_true]

theorem volumeBody_eq {t : State} (f : Volume → List Byte) (vol : e.op.vol = some v) (used : t.vols[v] = some x) :
    volumeBody f e t = f x := by
  simp only [volumeBody, vol, used, Option.map_some, Option.getD_some]

theorem forVolume_eq (f : Vol → State → State) (vol : e.op.vol = some v) (t : State) : forVolume f e t = f v t := by
  simp only [forVolume, vol]

theorem State.revokeVolume_held {c : ClaimIx} {cl : Claim} (n : Notice) (claimed : s.claimOf v = some c)
    (entry : s.claims[c] = some cl) (held : cl.state = .held) : s.revokeVolume v n = s.revoke c n := by
  simp only [State.revokeVolume, claimed, entry, held, if_true]

/-- A claim that is not HELD, or none, leaves nothing to revoke. -/
theorem State.revokeVolume_revoking (n : Notice)
    (revoking : ∀ (c : ClaimIx) cl, s.claimOf v = some c → s.claims[c] = some cl → cl.state = .revoking) :
    s.revokeVolume v n = s := by
  unfold State.revokeVolume
  split
  · rfl
  · rename_i c claimed
    split
    · rfl
    · rename_i cl entry
      rw [if_neg (by rw [revoking c cl claimed entry]; decide)]

theorem afterAccess_stays (used : s.vols[v] = some x)
    (allowed : ∀ (c : ClaimIx) cl, s.claimOf v = some c → s.claims[c] = some cl →
      cl.state = .revoking ∨ inMask x.writers cl.holder = true) :
    afterAccess v s = s.removeWaiters (fun w => w.vol == v && !inMask x.writers w.port) .denied := by
  rw [afterAccess, used]
  dsimp only
  rw [State.removeWaiters_told]
  split
  · rfl
  · rename_i c claimed
    split
    · rfl
    · rename_i cl entry
      refine if_neg ?_
      rintro ⟨held, out⟩
      rcases allowed c cl claimed entry with revoking | allowed
      · rw [held] at revoking
        cases revoking
      · rw [out] at allowed
        cases allowed

theorem afterAccess_revokes {c : ClaimIx} {cl : Claim} (used : s.vols[v] = some x) (claimed : s.claimOf v = some c)
    (entry : s.claims[c] = some cl) (held : cl.state = .held) (out : inMask x.writers cl.holder = false) :
    afterAccess v s = (s.removeWaiters (fun w => w.vol == v && !inMask x.writers w.port) .denied).revoke c .revoked := by
  rw [afterAccess, used]
  dsimp only
  rw [State.removeWaiters_told]
  have there : ({ s with
      waits := s.waits.filter (fun w => !(w.vol == v && !inMask x.writers w.port))
      hpi := s.told .denied (s.waits.filter (fun w => w.vol == v && !inMask x.writers w.port)) } : State).claimOf v = some c := claimed
  rw [there]
  dsimp only
  rw [entry]
  exact if_pos ⟨held, out⟩

theorem afterPin_stays (high : s.pinen = true)
    (revoking : ∀ (c : ClaimIx) cl, s.claimOf v = some c → s.claims[c] = some cl → cl.state = .revoking) :
    afterPin v s = s.removeWaiters (fun w => w.vol == v) .pinned := by
  rw [afterPin, if_pos high, State.removeWaiters_told]
  exact State.revokeVolume_revoking .revoked revoking

theorem afterPin_revokes {c : ClaimIx} {cl : Claim} (high : s.pinen = true) (claimed : s.claimOf v = some c)
    (entry : s.claims[c] = some cl) (held : cl.state = .held) :
    afterPin v s = (s.removeWaiters (fun w => w.vol == v) .pinned).revoke c .revoked := by
  rw [afterPin, if_pos high, State.removeWaiters_told]
  exact State.revokeVolume_held .revoked claimed entry held

end

/-- Settles O38: each record is one effect on its volume, and the waiters and the claim it reaches follow. -/
theorem adminEntriesComplete : Obligations.AdminEntriesComplete := by
  intro s e v en j
  refine ⟨fun label size a b rd wr writes content unused size1 size2 a1 a2 b1 b2 => ?_, fun x used => ?_⟩
  · have fits : placed size.toNat a.toNat b.toNat = true := by simp [placed, size1, size2, a1, a2, b1, b2]
    refine (entryCompletes_effect writes (by decide) content (volIndex_volByte v)
      unused (Effect.create _ label size a b rd wr fits)).trans ?_
    rw [volumeBody_eq basesBody writes.2.2.1 (State.recorded_vols _), basesBody]
    dsimp only [Volume.created]
    rw [half, half, BitVec.ofNat_toNat, BitVec.ofNat_toNat, BitVec.setWidth_eq, BitVec.setWidth_eq]
    rfl
  refine ⟨fun writes content => ?_, fun rd wr writes content => ⟨fun allowed => ?_, fun c cl claimed entry held out => ?_⟩,
    fun writes content => ⟨fun low => ?_, fun high => ⟨fun revoking => ?_, fun c cl claimed entry held => ?_⟩⟩,
    fun writes content => ?_⟩
  · refine (entryCompletes_effect writes (by decide) content (volIndex_volByte v) used (Effect.delete _ x)).trans ?_
    rw [forVolume_eq afterDelete writes.2.2.1, afterDelete, State.removeWaiters_told]
    rfl
  · refine (entryCompletes_effect writes (by decide) content (volIndex_volByte v) used (Effect.access _ rd wr x)).trans ?_
    rw [forVolume_eq afterAccess writes.2.2.1, afterAccess_stays (s := s.recorded en j _)
      (State.recorded_vols (some { x with readers := rd.setWidth 4, writers := wr.setWidth 4 })) allowed, State.removeWaiters_told]
    rfl
  · refine (entryCompletes_effect writes (by decide) content (volIndex_volByte v) used (Effect.access _ rd wr x)).trans ?_
    rw [forVolume_eq afterAccess writes.2.2.1, afterAccess_revokes (s := s.recorded en j _) (State.recorded_vols _) claimed entry held out,
      State.removeWaiters_told]
    rfl
  · refine (entryCompletes_effect writes (by decide) content (volIndex_volByte v) used (Effect.pin _ x)).trans ?_
    rw [forVolume_eq afterPin writes.2.2.1, afterPin, if_neg (by rw [State.recorded, low]; decide)]
    rfl
  · refine (entryCompletes_effect writes (by decide) content (volIndex_volByte v) used (Effect.pin _ x)).trans ?_
    rw [forVolume_eq afterPin writes.2.2.1, afterPin_stays (s := s.recorded en j _) high revoking,
      State.removeWaiters_told]
    rfl
  · refine (entryCompletes_effect writes (by decide) content (volIndex_volByte v) used (Effect.pin _ x)).trans ?_
    rw [forVolume_eq afterPin writes.2.2.1, afterPin_revokes (s := s.recorded en j _) high claimed entry held,
      State.removeWaiters_told]
    rfl
  · exact entryCompletes_effect writes (by decide) content (volIndex_volByte v) used (Effect.unpin _ x)

/-! ### The slots that the staging entries leave -/

section
variable (x : Volume) (sl : Slot) (r : SlotRec)

@[simp] theorem Volume.slot_setSlot_same : (x.setSlot sl r).slot sl = r := by cases sl <;> rfl

@[simp] theorem Volume.slot_setSlot_other : (x.setSlot sl r).slot sl.other = x.slot sl.other := by cases sl <;> rfl

@[simp] theorem Volume.slot_setOther_same : (x.setSlot sl.other r).slot sl = x.slot sl := by cases sl <;> rfl

@[simp] theorem Volume.slot_setOther_other : (x.setSlot sl.other r).slot sl.other = r := by cases sl <;> rfl

@[simp] theorem Volume.slot_genCounter (n : Nat) : ({ x with genCounter := n } : Volume).slot sl = x.slot sl := by cases sl <;> rfl

variable {x sl}

/-- The only slot in a state is the one found in it. -/
theorem Volume.slotIn_eq {st : SlotState} (here : (x.slot sl).state = st) (alone : (x.slot sl.other).state ≠ st) :
    x.slotIn st = some sl := by
  cases sl with
  | a => exact if_pos here
  | b => exact (if_neg alone).trans (if_pos here)

theorem activeBody_eq (here : (x.slot sl).state = .active) (alone : (x.slot sl.other).state ≠ .active) :
    activeBody x = slotCode sl :: word (x.slot sl).gen := by
  rw [activeBody, Volume.slotIn_eq here alone]

theorem stagingBody_eq (here : (x.slot sl).state = .staging) (alone : (x.slot sl.other).state ≠ .staging) :
    stagingBody x = [slotCode sl] := by
  rw [stagingBody, Volume.slotIn_eq here alone]

theorem Volume.rollback_eq (previous : (x.slot sl).state = .previous) (active : (x.slot sl.other).state = .active) :
    x.rollback = (x.setSlot sl { x.slot sl with state := .active }).setSlot sl.other { x.slot sl.other with state := .stale } := by
  cases sl <;> simp only [Volume.rollback, SlotRec.rollback, Volume.slot, Slot.other] at previous active ⊢ <;>
    rw [previous, active] <;> rfl

end

theorem Volume.commit_slot (x : Volume) (sl : Slot) (i : Image) : (x.commit sl i).slot sl = { state := .active, image := some i } := by
  rw [Volume.commit]
  split <;> simp

theorem Volume.commit_other (x : Volume) (sl : Slot) (i : Image) : ((x.commit sl i).slot sl.other).state ≠ .active := by
  rw [Volume.commit]
  split
  · simp
  · rename_i inactive
    simpa using inactive

/-- Settles O39: each record is one effect on its volume, and the staging map of the claim follows. -/
theorem stagingEntriesComplete : Obligations.StagingEntriesComplete := by
  intro s e v en j c cl x sl bound entry used
  refine ⟨fun writes content notActive noStaging => ?_, fun gen len crc writes content staging next => ?_,
    fun writes content previous active => ?_⟩
  · refine (entryCompletes_effect writes (by decide) content (volIndex_volByte v)
      used (Effect.stage _ _ sl x (slotOfCode_slotCode sl) notActive noStaging)).trans ?_
    have body : stagingBody (x.stage sl) = [slotCode sl] := stagingBody_eq (by simp [Volume.stage]) (by simpa [Volume.stage] using noStaging)
    have size : (x.stage sl).size = x.size := by cases sl <;> rfl
    rw [volumeBody_eq stagingBody writes.2.2.1 (State.recorded_vols _), body, afterStage, bound, writes.2.2.1]
    dsimp only
    rw [State.recorded_vols]
    dsimp only
    rw [State.onClaim_eq (s := s.recorded en j _) entry, size]
    rfl
  · refine (entryCompletes_effect writes (by decide) content (volIndex_volByte v)
      used (Effect.commit _ _ sl gen len crc x (slotOfCode_slotCode sl) staging next)).trans ?_
    have body := activeBody_eq (x := x.commit sl { gen := gen.toNat, len := len.toNat, crc := crc }) (sl := sl)
      (by rw [Volume.commit_slot]) (Volume.commit_other x sl _)
    rw [volumeBody_eq activeBody writes.2.2.1 (State.recorded_vols _), body, Volume.commit_slot, afterCommit, bound]
    dsimp only
    rw [State.onClaim_eq (s := s.recorded en j _) entry]
    have generation : word (SlotRec.gen { state := .active, image := some { gen := gen.toNat, len := len.toNat, crc := crc } }) = be32 gen := by
      simp only [SlotRec.gen, word, Option.map_some, Option.getD_some, BitVec.ofNat_toNat, BitVec.setWidth_eq]
    rw [generation]
    rfl
  · have found : (x.slotIn .previous).isSome = true := by
      rw [Volume.slotIn_eq previous (by rw [active]; decide)]
      rfl
    refine (entryCompletes_effect writes (by decide) content (volIndex_volByte v) used (Effect.rollback _ x found)).trans ?_
    have body := activeBody_eq (x := x.rollback) (sl := sl)
      (by rw [Volume.rollback_eq previous active]; simp) (by rw [Volume.rollback_eq previous active]; simp)
    have kept : s.claims.set c (some { cl with map := cl.map }) = s.claims := by
      have same : s.claims[c.val] = some cl := entry
      rw [show ({ cl with map := cl.map } : Claim) = cl from rfl, ← same, Vector.set_getElem_self]
    have generation : (x.rollback.slot sl).gen = (x.slot sl).gen := by
      rw [Volume.rollback_eq previous active]
      simp [SlotRec.gen]
    rw [volumeBody_eq activeBody writes.2.2.1 (State.recorded_vols _), body, generation, Volume.rollback_eq previous active]
    dsimp only
    rw [kept]
    rfl

end Sys2Proof.Machine
end

section
/-! The PINEN line and the resets of ports (R23, R58, R87, R104, R111, R135, R141, R144, R157, R170 to R173). -/

namespace Sys2Proof.Machine

/-! ### PINEN -/

section
variable {s : State}

/-- A claim of a pinned volume that is not HELD stays (R141). -/
theorem State.revokeIfPinned_stays {v : Vol}
    (revoking : ∀ x ∈ s.vols[v], x.pinned = true → ∀ (c : ClaimIx) cl, s.claimOf v = some c → s.claims[c] = some cl →
      cl.state = .revoking) : s.revokeIfPinned v = s := by
  unfold State.revokeIfPinned
  split
  · rfl
  · rename_i x used
    split
    · rename_i pinned
      exact State.revokeVolume_revoking .revoked (revoking x used pinned)
    · rfl

/-- Steps that each leave the part as it is leave it together as it is. -/
theorem foldl_stays {α : Type} (f : State → α → State) (l : List α) (stays : ∀ x, f s x = s) : l.foldl f s = s := by
  induction l with
  | nil => rfl
  | cons x rest ih => rw [List.foldl_cons, stays, ih]

end

/-- Settles O45: waiters first, then one volume after another. -/
theorem pinenLineMoves : Obligations.PinenLineMoves := by
  intro s pinned t revokes
  have removed : { s with pinen := true }.removeWaiters ({ s with pinen := true } : State).waiterPinned .pinned = t := by
    rw [State.removeWaiters_told]
    rfl
  have step : State.revokeIfPinned = revokes := by
    funext u v
    simp only [State.revokeIfPinned, State.revokeVolume, revokes]
    cases u.vols[v] with
    | none => rfl
    | some x =>
      cases u.claimOf v with
      | none => exact ite_self _
      | some c =>
        dsimp only
        cases u.claims[c] with
        | none => exact ite_self _
        | some cl =>
          dsimp only
          rw [ite_and]
  have asserted : exec .pinenAssertion s = .next ((List.finRange 32).foldl State.revokeIfPinned t) :=
    congrArg (fun u => Host.Outcome.next ((List.finRange 32).foldl State.revokeIfPinned u)) removed
  refine ⟨step ▸ asserted, fun revoking => asserted.trans (congrArg _ (foldl_stays _ _ fun v => ?_)), rfl⟩
  exact State.revokeIfPinned_stays (revoking v)

/-! ### What the assertion of PnRST clears -/

section
variable {s : State} (p : Port)

/-- Queued operations that are dropped leave their claims in number (R87). -/
theorem foldl_unbind (ops : List Op) : ops.foldl State.unbind s = { s with
    claims := Vector.ofFn (fun c : ClaimIx => (s.claims[c]).map (fun cl : Claim =>
      { cl with pending := cl.pending - ops.countP (fun o => o.claim == some c) })) } := by
  induction ops generalizing s with
  | nil =>
    have same : Vector.ofFn (fun c : ClaimIx => (s.claims[c]).map (fun cl : Claim => { cl with pending := cl.pending - 0 }))
        = s.claims := by
      apply Vector.ext
      intro i inside
      simp
    exact congrArg (fun cs => { s with claims := cs }) same.symm
  | cons o rest ih =>
    rw [List.foldl_cons, ih]
    have claims : (s.unbind o) = { s with claims := (s.unbind o).claims } := by
      unfold State.unbind
      split <;> rfl
    rw [claims]
    refine congrArg (fun cs => { s with claims := cs }) (Vector.ext fun i inside => ?_)
    simp only [Vector.getElem_ofFn]
    unfold State.unbind
    cases bound : o.claim with
    | none => simp [bound]
    | some c =>
      simp only [State.onClaim, State.setClaim, List.countP_cons, bound]
      by_cases e : c.val = i
      · subst e
        simp only [Fin.getElem_fin, Vector.getElem_set_self, Option.map_map]
        congr 1
        funext cl
        simp
        omega
      · have ne : c ≠ ⟨i, inside⟩ := fun h => e (congrArg Fin.val h)
        simp [Vector.getElem_set_ne _ _ e, ne]

theorem State.portCleared_eq : s.portCleared p = { s with
    hpi := s.hpi.set p { queue := [], outcome := .none, frame := none, rst := true, sel := s.hpi[p].sel, sdo := [] }
    views := s.views.set p (Vector.replicate 4 none)
    fifos := s.fifos.set p []
    claims := Vector.ofFn (fun c : ClaimIx => (s.claims[c]).map (fun cl : Claim =>
      { cl with pending := cl.pending - (s.fifos[p]).countP (fun o => o.claim == some c) }))
    engine := s.engine.map (fun e : InFlight => if e.port = some p then { e with discard := true } else e)
    waits := s.waits.filter (fun w => w.port != p) } := by
  rw [State.portCleared, State.dropFifo, foldl_unbind]
  rfl

/-- The claim that a port holds on a volume. -/
theorem claimNames_heldBy_iff (v : Vol) (c : ClaimIx) : (s.claimNames v c && s.heldBy p c) = true ↔
    ∃ cl, s.claims[c] = some cl ∧ cl.vol = v ∧ cl.holder = p ∧ cl.state = .held := by
  unfold State.claimNames State.heldBy
  cases s.claims[c] <;> simp

theorem mem_claimIxs (c : ClaimIx) : c ∈ claimIxs := by
  revert c
  decide

/-- A port in reset that has nothing queued, in flight or waiting, and holds no claim on the volumes named. -/
structure State.Apart (s : State) (p : Port) (ended : Vol → Prop) : Prop where
  queue : s.hpi[p].queue = []
  rst : s.hpi[p].rst = true
  fifo : s.fifos[p] = []
  flight : s.flightReservation p = 0
  waits : ∀ w ∈ s.waits, w.port ≠ p
  claims : ∀ v, ended v → ∀ c : ClaimIx, ¬∃ cl, s.claims[c] = some cl ∧ cl.vol = v ∧ cl.holder = p ∧ cl.state = .held

variable {p} {ended : Vol → Prop}

theorem State.portCleared_apart : (s.portCleared p).Apart p (fun _ => False) := by
  rw [State.portCleared_eq]
  refine ⟨?_, ?_, ?_, ?_, fun w mem => ?_, fun _ no => no.elim⟩
  · simp
  · simp
  · simp
  · unfold State.flightReservation
    cases engine : s.engine with
    | none => rfl
    | some e =>
      by_cases mine : e.port = some p <;> simp [mine]
  · have := List.of_mem_filter mem
    simpa using this

/-- A claim replaced by one that the port does not hold. -/
theorem State.Apart.setClaim (h : s.Apart p ended) (c : ClaimIx) (x : Option Claim)
    (other : ∀ cl ∈ x, cl.holder = p → cl.state ≠ .held) : ({ s with claims := s.claims.set c x } : State).Apart p ended := by
  refine ⟨h.queue, h.rst, h.fifo, h.flight, h.waits, fun v end_v d => ?_⟩
  rintro ⟨cl, entry, vol, holder, held⟩
  by_cases e : c = d
  · subst e
    exact other cl (by simpa using entry) holder held
  · have ne : c.val ≠ d.val := fun h => e (Fin.ext h)
    exact h.claims v end_v d ⟨cl, by simpa [Vector.getElem_set_ne _ _ ne] using entry, vol, holder, held⟩

theorem State.Apart.grantAll (h : s.Apart p ended) : s.grantAll.Apart p ended :=
  s.grantAll_keeps (P := fun t => t.Apart p ended) h fun t c w h _ found => by
    have stranger : w.port ≠ p := h.waits w (List.mem_of_find?_eq_some found)
    have granted := h.setClaim c (some (newClaim t w.vol w.port w.tag)) fun cl mem holder => by
      cases mem
      exact absurd holder stranger
    have ne : w.port.val ≠ p.val := fun e => stranger (Fin.ext e)
    refine ⟨?_, ?_, granted.fifo, granted.flight, fun u mem => granted.waits u (List.mem_of_mem_erase mem), granted.claims⟩
    · have same : (t.grantTo c w).hpi[p] = t.hpi[p] := by
        simp [State.grantTo, State.push, State.setHpi, State.setClaim, Vector.getElem_set_ne _ _ ne]
      rw [same]
      exact h.queue
    · have same : (t.grantTo c w).hpi[p] = t.hpi[p] := by
        simp [State.grantTo, State.push, State.setHpi, State.setClaim, Vector.getElem_set_ne _ _ ne]
      rw [same]
      exact h.rst

/-- The silent end of a claim of the port leaves it apart, without that claim. -/
theorem State.Apart.revoke (h : s.Apart p ended) {c : ClaimIx} {cl : Claim} (entry : s.claims[c] = some cl) (holder : cl.holder = p) :
    (s.revoke c .silent).Apart p (fun v => ended v ∨ (s.uniqueLaw ∧ cl.vol = v)) := by
  have stopped : ∀ x : Option Claim, (∀ y ∈ x, y.holder = p → y.state ≠ .held) →
      ({ s.called c cl .silent with claims := s.claims.set c x } : State).Apart p (fun v => ended v ∨ (s.uniqueLaw ∧ cl.vol = v)) := by
    intro x other
    have set := h.setClaim c x other
    refine ⟨?_, ?_, ?_, set.flight, set.waits, fun v ends d => ?_⟩
    · simpa [State.called, revocationAnswers, State.adds_nil] using h.queue
    · simpa [State.called, revocationAnswers, State.adds_nil] using h.rst
    · subst holder
      have empty : s.fifos[cl.holder] = [] := h.fifo
      simp only [State.called, empty, List.filter_nil, Fin.getElem_fin, Vector.getElem_set_self]
    · rcases ends with before | ⟨unique, vol⟩
      · exact set.claims v before d
      · rintro ⟨y, there, vol', holder', held⟩
        by_cases e : c = d
        · subst e
          exact other y (by simpa using there) holder' held
        · have ne : c.val ≠ d.val := fun h => e (Fin.ext h)
          have there : s.claims[d] = some y := by simpa [Vector.getElem_set_ne _ _ ne] using there
          exact e (unique c d cl entry y there (vol.trans vol'.symm))
  rw [s.revoke_some c .silent entry]
  split
  · exact stopped _ fun y mem _ held => by
      cases mem
      cases held
  · have freed := stopped none fun y mem => nomatch mem
    exact State.Apart.grantAll ⟨freed.queue, freed.rst, freed.fifo, freed.flight, freed.waits, freed.claims⟩

theorem State.Apart.mono {fewer : Vol → Prop} (h : s.Apart p ended) (fewer_ended : ∀ v, fewer v → ended v) : s.Apart p fewer :=
  ⟨h.queue, h.rst, h.fifo, h.flight, h.waits, fun v is => h.claims v (fewer_ended v is)⟩

theorem State.Apart.dropClaim (h : s.Apart p ended) (unique : s.uniqueLaw) (v : Vol) :
    (s.dropClaim p v).Apart p (fun u => ended u ∨ v = u) := by
  unfold State.dropClaim
  split
  · rename_i unheld
    refine ⟨h.queue, h.rst, h.fifo, h.flight, h.waits, fun u is => ?_⟩
    rcases is with before | rfl
    · exact h.claims u before
    · exact fun c holds => List.find?_eq_none.mp unheld c (mem_claimIxs c) ((claimNames_heldBy_iff p v c).mpr holds)
  · rename_i c claim
    obtain ⟨cl, entry, vol, holder, -⟩ := State.heldClaim_some s p v c claim
    exact (h.revoke entry holder).mono fun u is => is.imp_right fun e => ⟨unique, vol.trans e⟩

/-- R58: after the claims of a port have ended one volume after another, it holds none on these volumes. -/
theorem State.Apart.foldl_dropClaim (vs : List Vol) (h : s.Apart p ended) (unique : s.uniqueLaw) :
    (vs.foldl (fun t v => t.dropClaim p v) s).Apart p (fun v => ended v ∨ v ∈ vs) := by
  induction vs generalizing s ended with
  | nil => exact h.mono fun v is => is.resolve_right (List.not_mem_nil)
  | cons w rest ih =>
    refine (ih (h.dropClaim unique w) ((Moves.dropClaim p s w).uniqueLaw unique)).mono fun v is => ?_
    rcases is with before | mem
    · exact .inl (.inl before)
    · rcases List.mem_cons.mp mem with rfl | mem
      · exact .inl (.inr rfl)
      · exact .inr mem

/-- A port apart that holds no claim at all has nothing held and nothing reserved, and is silent (R157, R170, R171). -/
theorem State.Apart.nothing (h : s.Apart p ended) (all : ∀ v, ended v) :
    s.held p = 0 ∧ s.reservations p = 0 ∧ s.serves p = false ∧ s.attn p = false ∧ s.drivesSdo p = false := by
  have serves : s.serves p = false := by rw [State.serves, h.rst, Bool.not_true, Bool.and_false]
  have claims : claimIxs.countP (s.heldBy p) = 0 := by
    rw [List.countP_eq_zero]
    intro c _ held
    unfold State.heldBy at held
    split at held
    · rename_i cl entry
      simp only [Bool.and_eq_true, beq_iff_eq] at held
      exact h.claims cl.vol (all _) c ⟨cl, entry, rfl, held⟩
    · cases held
  have waits : s.waits.countP (fun w => w.port == p) = 0 := by
    rw [List.countP_eq_zero]
    intro w mem named
    exact h.waits w mem (by simpa using named)
  refine ⟨?_, ?_, serves, ?_, ?_⟩
  · rw [State.held, h.queue, List.length_nil]
  · rw [State.reservations, h.fifo, h.flight, claims, waits, List.length_nil]
  · rw [State.attn, serves, Bool.false_and]
  · rw [State.drivesSdo, serves, Bool.false_and]

end

/-- Settles O46: the port is cleared, its claims end one volume after another, and a deassertion changes the level alone. -/
theorem portResets : Obligations.PortResets := by
  intro p s t ends
  have cleared : s.portCleared p = t := State.portCleared_eq p
  have step : (fun (u : State) (v : Vol) => u.dropClaim p v) = ends := by
    funext u v
    simp only [State.dropClaim, ends]
    cases u.heldClaim p v <;> rfl
  have asserted : exec (.pnrstAssert p) s = .next ((List.finRange 32).foldl (fun u v => u.dropClaim p v) t) :=
    congrArg (fun u : State => (.next ((List.finRange 32).foldl (fun (u : State) v => u.dropClaim p v) u) : Res)) cleared
  have released : exec (.pnrstDeassert p) s = .next { s with hpi := s.hpi.set p { s.hpi[p] with rst := false } } := rfl
  refine ⟨step ▸ asserted, fun revoking => asserted.trans (congrArg _ (foldl_stays _ _ fun v => ?_)), fun unique => ?_, released,
    fun powered line => ⟨_, released, ?_, ?_⟩, fun frames rst => ?_⟩
  · unfold State.dropClaim
    cases claim : t.heldClaim p v with
    | none => rfl
    | some c =>
      obtain ⟨cl, entry, -, holder, held⟩ := State.heldClaim_some t p v c claim
      have entry : (s.claims[c]).map (fun x : Claim =>
          { x with pending := x.pending - (s.fifos[p]).countP (fun o => o.claim == some c) }) = some cl := by
        simpa [t] using entry
      obtain ⟨old, was, rfl⟩ := Option.map_eq_some_iff.mp entry
      rw [show old.state = .revoking from revoking c old was holder] at held
      cases held
  · have apart := (State.portCleared_apart (s := s) (p := p)).foldl_dropClaim (List.finRange 32)
      ((Shrinks.portCleared p).uniqueLaw unique)
    rw [cleared] at apart
    exact ⟨_, asserted, apart.nothing fun v => .inr (List.mem_finRange v)⟩
  · simp [State.serves, powered, line]
  · simp [State.drivesSdo, State.serves, powered, line]
  · have silent : s.drivesSdo p = false := by
      rw [State.drivesSdo, State.serves, rst, Bool.not_true, Bool.and_false, Bool.false_and]
    have idle : s.hpi[p].frame = none := by
      by_contra busy
      obtain ⟨f, frame⟩ := Option.ne_none_iff_exists'.mp busy
      have drives := (frames p f frame).1
      rw [silent] at drives
      cases drives
    refine ⟨_, released, by simpa using idle, fun q f frame => ?_⟩
    by_cases e : p = q
    · subst e
      have none : f ∈ s.hpi[p].frame := by simpa using frame
      rw [idle] at none
      cases none
    · have ne : p.val ≠ q.val := fun h => e (Fin.ext h)
      have same : (s.hpi.set p { s.hpi[p] with rst := false })[q] = s.hpi[q] := by simp [Vector.getElem_set_ne _ _ ne]
      obtain ⟨drives, selected⟩ := frames q f (same ▸ frame)
      refine ⟨?_, ?_⟩
      · rw [State.drivesSdo, State.serves, same]
        exact drives
      · rw [same]
        exact selected

end Sys2Proof.Machine
end

section
/-! Device reset, power and start-up, and the part right after reset (R2, R7, R23, R59, R88, R106, R112, R121, R125, R126, R147,
R148, R154, R157, R174). -/

namespace Sys2Proof.Machine

/-! ### The cut that a reset or a loss of power makes -/

section
variable {s : State} {cut : Cut} {st : Store} {r : Row}

/-- What the moment of the cut leaves of the work in flight (R2, R106, R126, R154). -/
theorem State.abort_eq (left : (s.engine = none ∧ st = s.store ∧ r = s.row)
      ∨ (∃ e, s.engine = some e ∧
        ((e.phase = .none ∨ e.phase = .verifying) ∧ (st = s.store ∧ r = s.row)
        ∨ (∃ n, e.phase = .erasing n ∧ st = s.store.spoilSector n ∧ r = s.row)
        ∨ (∃ n pg, e.phase = .programming n pg ∧ st = s.store.spoilPage n pg ∧ r = s.row)
        ∨ (∃ j : JSector, e.phase = .journaling j ∧ cut = .before ∧ (st = s.store ∧ r = s.row))
        ∨ (∃ (j : JSector) (k : Nat), e.phase = .journaling j ∧ cut ≠ .before
          ∧ ((∃ o, e.own = some o ∧ o.pos = k) ∨ (e.own = none ∧ ∃ jr, s.journal = some jr ∧ jr.append = k))
          ∧ st = s.store.spoilPosition j k ∧ r = s.row)
        ∨ (e.phase = .rowWriting ∧ st = s.store ∧ ((cut = .before ∧ r = s.row) ∨ (cut = .during ∧ r = .torn)
          ∨ (cut = .after ∧ ∃ a l eb pb, e.op.params = [a, l, eb, pb]
            ∧ r = .bytes a l eb pb (crc32 [a, l, eb, pb]))))))) : s.abort cut = { s with store := st, row := r } := by
  rcases left with ⟨idle, store, row⟩ | ⟨e, busy, ⟨quiet | quiet, store, row⟩ | ⟨n, phase, store, row⟩ | ⟨n, pg, phase, store, row⟩
    | ⟨j, phase, early, store, row⟩ | ⟨j, k, phase, begun, place, store, row⟩ | ⟨phase, store, row⟩⟩
  · rw [store, row]
    change s.abort cut = s
    rw [State.abort, idle]
  · rw [store, row]
    change s.abort cut = s
    simp only [State.abort, busy, quiet]
  · rw [store, row]
    change s.abort cut = s
    simp only [State.abort, busy, quiet]
  · simp only [State.abort, busy, phase, store, row]
  · simp only [State.abort, busy, phase, store, row]
  · rw [store, row]
    change s.abort cut = s
    simp only [State.abort, busy, phase, early, if_true]
  · have position : s.programPosition e = some k := by
      unfold State.programPosition
      rcases place with ⟨o, own, rfl⟩ | ⟨own, jr, journal, rfl⟩
      · rw [own]
      · rw [own, journal]
        rfl
    simp only [State.abort, busy, phase, begun, if_false, position, store, row]
  · simp only [State.abort, busy, phase, store]
    rcases row with ⟨rfl, rfl⟩ | ⟨rfl, rfl⟩ | ⟨rfl, a, l, eb, pb, params, rfl⟩
    · rfl
    · rfl
    · rw [cutRow, params]
      rfl

/-- A port of a part under RESET or without power is silent (R174). -/
theorem State.silent_of_down (down : s.down) (p : Port) : s.drivesSdo p = false ∧ s.attn p = false := by
  have serves : s.serves p = false := by
    rw [State.serves]
    rcases down with powered | line
    · rw [powered, Bool.false_and, Bool.false_and]
    · rw [line, Bool.not_true, Bool.and_false, Bool.false_and]
  rw [State.drivesSdo, State.attn, serves]
  exact ⟨Bool.false_and _, Bool.false_and _⟩

end

/-- Settles O47: the cut decides what the work leaves, and everything volatile goes. -/
theorem deviceResets : Obligations.DeviceResets := by
  intro s cut st r cleared
  refine ⟨fun left => ?_, ?_⟩
  · have aborted := State.abort_eq left
    have volatile : (s.abort cut).clearVolatile = cleared := by
      rw [aborted]
      rfl
    refine ⟨?_, ?_, ?_, fun p t mem => ?_⟩
    · change execResetAssert cut s = _
      rw [execResetAssert, volatile]
    · change execPowerLoss cut s = _
      rw [execPowerLoss, volatile]
    · rintro rfl
      change execPowerOn s = _
      rw [execPowerOn, volatile]
      rfl
    · rcases List.mem_cons.mp mem with rfl | mem
      · exact State.silent_of_down (.inr rfl) p
      · rw [List.mem_singleton.mp mem]
        exact State.silent_of_down (.inl rfl) p
  · change execResetDeassert s = _
    rw [execResetDeassert]
    split <;> rfl

/-! ### The end of start-up -/

/-- The compaction check of an idle engine (R116, R125). -/
theorem State.compactionCheck_idle {s : State} {j : Journal} (idle : s.engine = none) (journal : s.journal = some j) :
    s.compactionCheck = { s with compactSlot := s.compactSlot || 2048 - j.append ≤ 64 } := by
  have free : s.compactionCheck = if 2048 - j.append ≤ 64 then { s with compactSlot := true } else s := by
    simp only [State.compactionCheck, journal, Journal.free, Config.positions, Config.compactThreshold, State.scheduleCompaction,
      State.compacting, idle, Bool.false_eq_true, if_false]
  rw [free]
  split
  · rename_i low
    rw [decide_eq_true low, Bool.or_true]
  · rename_i high
    rw [decide_eq_false high, Bool.or_false]

theorem State.started_unusable {s : State} (unusable : replay s.store = none) :
    s.started = { s with vols := Vector.replicate 32 none, journal := none, skipped := 0, mode := .unformatted } := by
  unfold State.started
  simp only [unusable]

theorem State.started_usable {s : State} {r : Replayed} (idle : s.engine = none) (usable : replay s.store = some r) :
    s.started = ({ s with vols := r.dir, journal := some r.journal, skipped := r.skipped, mode := .normal
                          compactSlot := s.compactSlot || 2048 - r.journal.append ≤ 64 } : State).pick := by
  unfold State.started
  simp only [usable]
  rw [State.compactionCheck_idle (s := { s with
    vols := r.dir, journal := some r.journal, skipped := r.skipped, mode := .normal }) idle rfl]

/-- Settles O48: the row derives the provisioning state, and replay decides the rest. -/
theorem startUpEnds : Obligations.StartUpEnds := by
  intro s
  refine ⟨fun powered line starting idle => ?_, fun outside => ?_⟩
  · intro t
    have derived : s.deriveRow.emptyClaims = t := by
      have values : valuesOf (deriveProv s.row) s.row = t.values := by
        dsimp only [t]
        unfold valuesOf
        cases deriveProv s.row <;> cases s.row <;> rfl
      rw [State.deriveRow, State.setRow, values]
      rfl
    have ends : exec .startUpEnd s = .next t.started := by
      change execStartUpEnd s = _
      rw [execStartUpEnd, if_pos ⟨powered, line, starting⟩, derived]
    exact ⟨fun unusable => ends.trans (congrArg _ (State.started_unusable (s := t) unusable)),
      fun r usable => ends.trans (congrArg _ (State.started_usable (s := t) idle usable))⟩
  · change execStartUpEnd s = _
    refine if_neg ?_
    rintro ⟨powered, line, starting⟩
    rcases outside with h | h | h
    · rw [powered] at h
      cases h
    · rw [line] at h
      cases h
    · exact h starting

/-! ### The part right after reset -/

section

theorem reset_vols (v : Vol) : State.reset.vols[v] = none := by simp [State.reset]

theorem reset_claims (c : ClaimIx) : State.reset.claims[c] = none := by simp [State.reset]

theorem reset_fifos (p : Port) : State.reset.fifos[p] = [] := by simp [State.reset]

theorem reset_views (p : Port) (h : Handle) : State.reset.views[p][h] = none := by simp [State.reset]

theorem reset_hpi (p : Port) : State.reset.hpi[p] = Hpi.cleared false false := by simp [State.reset]

theorem reset_held (p : Port) : State.reset.held p = 0 := by rw [State.held, reset_hpi]; rfl

theorem reset_reservations (p : Port) : State.reset.reservations p = 0 := by
  revert p
  decide

theorem reset_replay : replay State.reset.store = none := replay_blank _ rfl rfl

theorem reset_journalLaw : State.reset.journalLaw := by
  refine ⟨⟨fun v w _ x mem => ?_, fun v x mem => ?_⟩, fun r mem => ?_, fun _ => reset_replay, fun mode => ?_, fun j mem => (nomatch mem),
    fun e mem => (nomatch mem), fun e mem => (nomatch mem), fun p o mem => ?_⟩
  · rw [reset_vols] at mem
    cases mem
  · rw [reset_vols] at mem
    cases mem
  · rw [reset_replay] at mem
    cases mem
  · rcases mode with h | h <;> cases h
  · rw [reset_fifos] at mem
    cases mem

end

/-- Settles O51: nothing is held, so that each law is about nothing. -/
theorem resetIsEmptyAndLawful : Obligations.ResetIsEmptyAndLawful := by
  refine ⟨rfl, rfl, rfl, rfl, rfl, rfl, rfl, reset_vols, reset_claims, reset_fifos, reset_views, fun p => ?_, rfl, fun p => ?_,
    ⟨fun p => ?_, fun j mem => (nomatch mem), ?_, fun e mem => (nomatch mem)⟩, ⟨⟨fun _ => rfl, fun _ => ?_⟩, fun mode => (nomatch mode)⟩,
    fun _ starting => absurd rfl starting, fun c d x mem => ?_, ⟨?_, ?_, fun w mem => (nomatch mem)⟩, fun up => (nomatch up),
    fun e mem => (nomatch mem), fun e mem => (nomatch mem), fun c cl mem => ?_, fun p h w mem => ?_, fun v x mem => ?_,
    fun p f mem => ?_, reset_journalLaw, fun e mem => (nomatch mem)⟩
  · refine ⟨?_, ?_, ?_, ?_, ?_, ?_⟩
    · rw [reset_hpi]; rfl
    · rw [reset_hpi]; rfl
    · rw [State.freeEntries, reset_held, reset_reservations]; rfl
    · rw [State.attn, reset_hpi]; exact Bool.and_false _
    · rw [State.drivesSdo, reset_hpi]; exact Bool.and_false _
    · rw [State.statusByte, reset_hpi, reset_held]; rfl
  · rw [reset_held, reset_reservations]
    exact Nat.zero_le _
  · rw [reset_fifos]
    exact Nat.zero_le _
  · exact Nat.zero_le _
  · exact ⟨rfl, rfl, rfl, rfl, rfl, rfl, rfl, rfl⟩
  · rw [reset_claims] at mem
    cases mem
  · exact Nat.zero_le _
  · exact List.nodup_nil
  · rw [reset_claims] at mem
    cases mem
  · rw [reset_views] at mem
    cases mem
  · rw [reset_vols] at mem
    cases mem
  · rw [reset_hpi] at mem
    cases mem

end Sys2Proof.Machine
end

section
/-! Entries as replay reads them, one after another, and the snapshot of a COMPACT (R113, R118, R122, R123). -/

namespace Sys2Proof.Machine

/-! ### Entries read in order -/

/-- Replay reads one record (R123, R124): the sequence number of its entry decided on its validity alone. -/
def Rebuild.read (r : Rebuild) (c : JRecord) : Rebuild := rebuildEntry r { seq := 0, content := c }

theorem rebuildStep_valid (r : Rebuild) (e : JEntry) : rebuildStep r (some (some e)) = r.read e.content := rfl

/-- Positions that hold valid entries. -/
def entriesAt (es : List JEntry) : List (Option (Option JEntry)) := es.map (fun e => some (some e))

/-- Entries of some records, with sequence numbers that count up from `n`. -/
def numbered (n : Nat) (rs : List JRecord) : List JEntry := rs.mapIdx (fun i r => { seq := BitVec.ofNat 32 (n + i), content := r })

theorem numbered_cons (n : Nat) (r : JRecord) (rs : List JRecord) :
    numbered n (r :: rs) = { seq := BitVec.ofNat 32 n, content := r } :: numbered (n + 1) rs := by
  rw [numbered, List.mapIdx_cons]
  congr 1
  exact List.mapIdx_eq_mapIdx_iff.mpr fun i _ => by rw [Nat.add_right_comm, Nat.add_assoc]

theorem numbered_contents (n : Nat) (rs : List JRecord) : (numbered n rs).map JEntry.content = rs := by
  induction rs generalizing n with
  | nil => rfl
  | cons r rest ih => rw [numbered_cons, List.map_cons, ih]

theorem validEntries_append (ps qs : List (Option (Option JEntry))) :
    validEntries (ps ++ qs) = validEntries ps ++ validEntries qs := List.filterMap_append

theorem validEntries_entriesAt (es : List JEntry) : validEntries (entriesAt es) = es := by
  induction es with
  | nil => rfl
  | cons e rest ih =>
    change e :: validEntries (entriesAt rest) = _
    rw [ih]

theorem foldl_entriesAt (r : Rebuild) (es : List JEntry) :
    (entriesAt es).foldl rebuildStep r = (es.map JEntry.content).foldl Rebuild.read r := by
  rw [entriesAt, List.foldl_map, List.foldl_map]
  rfl

/-- The sequence number that a valid entry has to exceed after some positions (R113). -/
def lastSeq (last : Option Word) (ps : List (Option (Option JEntry))) : Option Word :=
  match (validEntries ps).getLast? with
  | some e => some e.seq
  | none => last

theorem lastSeq_valid (last : Option Word) (e : JEntry) (ps : List (Option (Option JEntry))) :
    lastSeq last (some (some e) :: ps) = lastSeq (some e.seq) ps := by
  change lastSeq last (entriesAt [e] ++ ps) = _
  rw [lastSeq, lastSeq, validEntries_append, validEntries_entriesAt]
  cases h : validEntries ps with
  | nil => rfl
  | cons f rest => rw [List.getLast?_append, List.getLast?_eq_some_getLast (List.cons_ne_nil f rest)]; rfl

/-- The positions of a sector are judged in order. -/
theorem classify_append (last : Option Word) (ps qs : List (Option (Option JEntry))) :
    classify last (ps ++ qs) = classify last ps ++ classify (lastSeq last (classify last ps)) qs := by
  induction ps generalizing last with
  | nil => rfl
  | cons p rest ih =>
    rcases p with _ | _ | e
    · exact congrArg _ (ih last)
    · exact congrArg _ (ih last)
    · cases last with
      | none =>
        simp only [List.cons_append, classify, lastSeq_valid]
        rw [ih]
      | some q =>
        simp only [List.cons_append, classify]
        split
        · rw [List.cons_append, lastSeq_valid, ih]
        · rw [List.cons_append, ih]
          rfl

/-- Sequence numbers that count up are valid (R113). -/
theorem classify_numbered (last : Option Word) (n : Nat) (rs : List JRecord) (fits : n + rs.length ≤ 4294967296)
    (above : ∀ q ∈ last, q.toNat < n) : classify last (entriesAt (numbered n rs)) = entriesAt (numbered n rs) := by
  induction rs generalizing last n with
  | nil => rfl
  | cons r rest ih =>
    rw [List.length_cons] at fits
    have seq : (BitVec.ofNat 32 n).toNat = n := by
      rw [BitVec.toNat_ofNat]
      omega
    have next := ih (some (BitVec.ofNat 32 n)) (n + 1) (by omega) fun q mem => by
      rw [← Option.mem_some.mp mem, seq]
      exact Nat.lt_succ_self n
    rw [numbered_cons]
    change classify last (some (some _) :: entriesAt _) = some (some _) :: entriesAt _
    cases last with
    | none => simp only [classify, next]
    | some q =>
      have below : q.toNat < (BitVec.ofNat 32 n).toNat := by
        rw [seq]
        exact above q rfl
      simp only [classify, below, if_true, next]

/-! ### A complete snapshot (R122) -/

/-- SNAP_VOLs and SNAP_SLOTs run on to a SNAP_END that counts them, itself and those before. -/
theorem snapshotComplete_end (n : Nat) (body : List JEntry) (e : JEntry) (count : Half) (bodies : ∀ b ∈ body, isSnapBody b.content = true)
    (fin : e.content = .snapEnd count) (counts : count.toNat = n + body.length + 1) : snapshotComplete n (body ++ [e]) = true := by
  induction body generalizing n with
  | nil =>
    simp only [List.nil_append, snapshotComplete, fin, counts, List.length_nil, Nat.add_zero, beq_self_eq_true]
  | cons b rest ih =>
    have next := ih (n + 1) (fun x mem => bodies x (List.mem_cons_of_mem b mem)) (by rw [counts, List.length_cons]; omega)
    have body := bodies b List.mem_cons_self
    rw [List.cons_append, snapshotComplete]
    cases content : b.content with
    | snapVol => exact next
    | snapSlot => exact next
    | _ =>
      rw [content] at body
      cases body

/-- A sector that begins with a HEADER, at one of its first three positions, and a complete snapshot is usable (R122). -/
theorem usableEpoch_complete {ps : List (Option (Option JEntry))} {k : Nat} {e : JEntry} {rest : List JEntry} {epoch : Word}
    (first : firstValid 0 ps = some k) (near : k ≤ 2) (entries : validEntries ps = e :: rest) (header : e.content = .header epoch)
    (complete : snapshotComplete 1 rest = true) : usableEpoch ps = some epoch.toNat := by
  simp only [usableEpoch, first, near, if_true, entries, header, complete]

/-! ### The records of a snapshot (R118) -/

/-- The items of one volume. -/
def volumeItems (d : Directory) (v : Vol) : List SnapItem :=
  match d[v] with
  | some _ => [.vol v, .slot v .a, .slot v .b]
  | none => []

/-- The snapshot but for its SNAP_END. -/
def bodyItems (d : Directory) : List SnapItem := (List.finRange 32).flatMap (volumeItems d)

theorem snapshotItems_eq (d : Directory) : snapshotItems d = bodyItems d ++ [.fin] := rfl

theorem bodyItems_length_le (d : Directory) : (bodyItems d).length ≤ 96 := by
  have each : ∀ v ∈ List.finRange 32, (volumeItems d v).length ≤ 3 := fun v _ => by
    unfold volumeItems
    split
    · exact Nat.le_refl 3
    · exact Nat.zero_le 3
  rw [bodyItems, List.length_flatMap]
  calc ((List.finRange 32).map (fun v => (volumeItems d v).length)).sum
      ≤ ((List.finRange 32).map (fun v => (volumeItems d v).length)).length • 3 :=
        List.sum_le_card_nsmul _ 3 fun n mem => by
          obtain ⟨v, here, rfl⟩ := List.mem_map.mp mem
          exact each v here
    _ = 96 := by simp

/-- The record of an item of the body does not count entries. -/
theorem itemRecord_body (d : Directory) (n m : Nat) {item : SnapItem} (body : item ≠ .fin) : itemRecord d n item = itemRecord d m item := by
  cases item with
  | vol => rfl
  | slot => rfl
  | fin => exact absurd rfl body

theorem mem_bodyItems {d : Directory} {item : SnapItem} (mem : item ∈ bodyItems d) :
    item ≠ .fin ∧ ∀ n, isSnapBody (itemRecord d n item) = true := by
  obtain ⟨v, -, mem⟩ := List.mem_flatMap.mp mem
  unfold volumeItems at mem
  split at mem
  · rename_i x used
    rcases List.mem_cons.mp mem with rfl | mem
    · exact ⟨nofun, fun n => by simp only [itemRecord, used, snapVolOf, isSnapBody]⟩
    · rcases List.mem_cons.mp mem with rfl | mem
      · exact ⟨nofun, fun n => by simp only [itemRecord, used, snapSlotOf, isSnapBody]⟩
      · rw [List.mem_singleton.mp mem]
        exact ⟨nofun, fun n => by simp only [itemRecord, used, snapSlotOf, isSnapBody]⟩
  · cases mem

/-- The records of a snapshot: the body, and a SNAP_END that counts from the HEADER. -/
theorem snapshotRecords_eq (d : Directory) : (snapshotItems d).mapIdx (fun i item => itemRecord d (i + 1) item)
    = (bodyItems d).map (itemRecord d 0) ++ [.snapEnd (BitVec.ofNat 16 ((bodyItems d).length + 2))] := by
  rw [snapshotItems_eq, List.mapIdx_concat]
  congr 1
  apply List.ext_getElem
  · rw [List.length_mapIdx, List.length_map]
  · intro i _ inside
    rw [List.getElem_mapIdx, List.getElem_map]
    rw [List.length_map] at inside
    exact itemRecord_body d _ _ (mem_bodyItems (List.getElem_mem inside)).1

/-! ### What replay makes of them (R123) -/

theorem slotStateOfCode_slotStateCode (st : SlotState) : slotStateOfCode (slotStateCode st) = some st := by cases st <;> rfl

/-- The fields of a volume fit those of its SNAP_VOL and SNAP_SLOTs (R182). -/
structure Volume.Fits (x : Volume) : Prop where
  placed : placed x.size x.baseA x.baseB = true
  counter : x.genCounter ≤ 4294967295
  images : ∀ sl, ∀ i ∈ (x.slot sl).image, 1 ≤ i.gen ∧ i.gen ≤ 4294967295 ∧ i.len ≤ 4294967295

section
variable {x : Volume} (fits : x.Fits)
include fits

/-- The image of a slot is read back from its three fields. -/
theorem imageOf_slot (sl : Slot) :
    imageOf (BitVec.ofNat 32 (x.slot sl).gen) (BitVec.ofNat 32 (x.slot sl).len) (x.slot sl).crc = (x.slot sl).image := by
  have image := fits.images sl
  unfold SlotRec.gen SlotRec.len SlotRec.crc
  cases stored : (x.slot sl).image with
  | none => rfl
  | some i =>
    obtain ⟨low, high, len⟩ := image i stored
    have gen : (BitVec.ofNat 32 i.gen).toNat = i.gen := by
      rw [BitVec.toNat_ofNat]
      omega
    have length : (BitVec.ofNat 32 i.len).toNat = i.len := by
      rw [BitVec.toNat_ofNat]
      omega
    have present : ¬BitVec.ofNat 32 i.gen = 0 := fun zero => by
      rw [zero] at gen
      exact absurd gen.symm (by simp only [BitVec.ofNat_eq_ofNat, BitVec.toNat_ofNat, Nat.zero_mod]; omega)
    simp only [Option.map_some, Option.getD_some, imageOf, present, false_and, if_false, gen, length]

end

/-- Replay reads a SNAP_SLOT of the volume whose SNAP_VOL it read last (R123). -/
theorem Rebuild.read_snapSlot {r : Rebuild} {v : Vol} {x y : Volume} (before : r.ended = false) (last : r.last = some (volByte v))
    (there : r.dir[v] = some y) (fits : x.Fits) (sl : Slot) :
    r.read (snapSlotOf v x sl) = { r with dir := r.dir.set v (some (y.setSlot sl (x.slot sl))) } := by
  simp only [Rebuild.read, rebuildEntry, before, Bool.false_eq_true, if_false, snapSlotOf, rebuildSlot, slotOfCode_slotCode,
    slotStateOfCode_slotStateCode, last, if_true, imageOf_slot fits]
  rw [onVolume_volByte r.dir v y (y.setSlot sl (x.slot sl)) (fun y => some (y.setSlot sl (x.slot sl))) there rfl]

/-- Replay reads a SNAP_VOL of a volume it has not read yet (R123). -/
theorem Rebuild.read_snapVol {r : Rebuild} {v : Vol} {x : Volume} (before : r.ended = false) (unread : r.dir[v] = none) (fits : x.Fits) :
    r.read (snapVolOf v x) = { r with
      last := some (volByte v)
      dir := r.dir.set v (some { x with
        slotA := { state := .empty, image := none }, slotB := { state := .empty, image := none }, deleting := false }) } := by
  obtain ⟨⟨⟨⟨⟨size1, size2⟩, a1⟩, a2⟩, b1⟩, b2⟩ : ((((1 ≤ x.size ∧ x.size ≤ 64) ∧ 1 ≤ x.baseA) ∧ x.baseA ≤ 255) ∧ 257 ≤ x.baseB)
      ∧ x.baseB ≤ 511 := by
    simpa only [placed, Bool.and_eq_true, decide_eq_true_eq] using fits.placed
  have size : (byteOf x.size).toNat = x.size := by
    rw [byteOf, BitVec.toNat_ofNat]
    omega
  have baseA : (BitVec.ofNat 16 x.baseA).toNat = x.baseA := by
    rw [BitVec.toNat_ofNat]
    omega
  have baseB : (BitVec.ofNat 16 x.baseB).toNat = x.baseB := by
    rw [BitVec.toNat_ofNat]
    omega
  have counter : (BitVec.ofNat 32 x.genCounter).toNat = x.genCounter := by
    rw [BitVec.toNat_ofNat]
    have := fits.counter
    omega
  have pinned : ((if x.pinned then 1 else 0 : Byte) != 0) = x.pinned := by cases x.pinned <;> rfl
  have mask (m : Mask) : (m.setWidth 8).setWidth 4 = m := by
    rw [BitVec.setWidth_setWidth_of_le _ (by decide), BitVec.setWidth_eq]
  simp only [Rebuild.read, rebuildEntry, before, Bool.false_eq_true, if_false, snapVolOf, rebuildVol, volIndex_volByte, unread, size,
    baseA, baseB, fits.placed, and_self, if_true, counter, pinned, mask, Volume.created]

/-- A volume without its deletion flag, which the journal does not hold (R118). -/
def Volume.durable (x : Volume) : Volume := { x with deleting := false }

/-- The records of one volume give the volume. -/
theorem Rebuild.read_volume {r : Rebuild} {d : Directory} {v : Vol} {x : Volume} (before : r.ended = false) (unread : r.dir[v] = none)
    (used : d[v] = some x) (fits : x.Fits) : ((volumeItems d v).map (itemRecord d 0)).foldl Rebuild.read r
      = { r with last := some (volByte v), dir := r.dir.set v (some x.durable) } := by
  simp only [volumeItems, used, List.map_cons, List.map_nil, itemRecord, List.foldl_cons, List.foldl_nil]
  let opened : Volume := { x with
    slotA := { state := .empty, image := none }, slotB := { state := .empty, image := none }, deleting := false }
  have vol : r.read (snapVolOf v x) = { r with last := some (volByte v), dir := r.dir.set v (some opened) } :=
    Rebuild.read_snapVol before unread fits
  have first := Rebuild.read_snapSlot (r := { r with last := some (volByte v), dir := r.dir.set v (some opened) }) (y := opened)
    before rfl (by rw [directory_set_get, if_pos rfl]) fits .a
  have second := Rebuild.read_snapSlot (r := { r with
      last := some (volByte v), dir := (r.dir.set v (some opened)).set v (some (opened.setSlot .a (x.slot .a))) })
    (y := opened.setSlot .a (x.slot .a)) before rfl (by rw [directory_set_get, if_pos rfl]) fits .b
  rw [vol, first, second]
  simp only [Vector.set_set]
  rfl

/-- The records of some volumes, one after another. -/
theorem Rebuild.read_volumes (vs : List Vol) {r : Rebuild} {d : Directory} (before : r.ended = false) (distinct : vs.Nodup)
    (unread : ∀ v ∈ vs, r.dir[v] = none) (fits : ∀ v : Vol, ∀ x ∈ d[v], x.Fits) :
    ∃ t : Rebuild, ((vs.flatMap (volumeItems d)).map (itemRecord d 0)).foldl Rebuild.read r = t ∧ t.ended = false
      ∧ t.skipped = r.skipped ∧ ∀ w : Vol, t.dir[w] = if w ∈ vs then (d[w]).map Volume.durable else r.dir[w] := by
  induction vs generalizing r with
  | nil => exact ⟨r, rfl, before, rfl, fun w => (if_neg List.not_mem_nil).symm⟩
  | cons v rest ih =>
    obtain ⟨out, distinct⟩ := List.nodup_cons.mp distinct
    rw [List.flatMap_cons, List.map_append, List.foldl_append]
    cases used : d[v] with
    | none =>
      have none : volumeItems d v = [] := by simp only [volumeItems, used]
      rw [none, List.map_nil, List.foldl_nil]
      obtain ⟨t, read, ended, skipped, dir⟩ := ih before distinct fun w mem => unread w (List.mem_cons_of_mem v mem)
      refine ⟨t, read, ended, skipped, fun w => ?_⟩
      rw [dir]
      by_cases e : w = v
      · subst e
        rw [if_neg out, if_pos List.mem_cons_self, used, unread w List.mem_cons_self]
        rfl
      · simp only [List.mem_cons, e, false_or]
    | some x =>
      rw [Rebuild.read_volume before (unread v List.mem_cons_self) used (fits v x used)]
      obtain ⟨t, read, ended, skipped, dir⟩ := ih (r := { r with last := some (volByte v), dir := r.dir.set v (some x.durable) })
        before distinct fun w mem => by
          have ne : v ≠ w := fun e => out (e ▸ mem)
          rw [directory_set_get, if_neg ne]
          exact unread w (List.mem_cons_of_mem v mem)
      refine ⟨t, read, ended, skipped, fun w => ?_⟩
      rw [dir, directory_set_get]
      by_cases e : w = v
      · subst e
        rw [if_neg out, if_pos rfl, if_pos List.mem_cons_self, used]
        rfl
      · simp only [List.mem_cons, e, false_or, Ne.symm e, if_false]

/-! ### A whole snapshot -/

/-- The records that a COMPACT writes (R118). -/
def snapshotOf (d : Directory) (epoch : Nat) : List JRecord :=
  .header (BitVec.ofNat 32 epoch) :: (snapshotItems d).mapIdx (fun i item => itemRecord d (i + 1) item)

section
variable (d : Directory) {epoch : Nat}

theorem snapshotOf_length : (snapshotOf d epoch).length = (bodyItems d).length + 2 := by
  rw [snapshotOf, List.length_cons, List.length_mapIdx, snapshotItems_eq, List.length_append]
  rfl

theorem snapshotOf_valid : classify none (entriesAt (numbered 1 (snapshotOf d epoch))) = entriesAt (numbered 1 (snapshotOf d epoch)) := by
  refine classify_numbered none 1 _ ?_ fun q mem => nomatch mem
  have := bodyItems_length_le d
  rw [snapshotOf_length]
  omega

theorem snapshotOf_usable (low : 1 ≤ epoch) (high : epoch ≤ 4294967295) :
    usableEpoch (entriesAt (numbered 1 (snapshotOf d epoch))) = some epoch := by
  have short := bodyItems_length_le d
  have word : (BitVec.ofNat 32 epoch).toNat = epoch := by
    rw [BitVec.toNat_ofNat]
    omega
  have complete : snapshotComplete 1 (numbered 2 ((snapshotItems d).mapIdx (fun i item => itemRecord d (i + 1) item))) = true := by
    rw [snapshotRecords_eq, numbered, List.mapIdx_concat]
    refine snapshotComplete_end 1 _ _ (BitVec.ofNat 16 ((bodyItems d).length + 2)) (fun b mem => ?_) rfl ?_
    · have content : b.content ∈ (numbered 2 ((bodyItems d).map (itemRecord d 0))).map JEntry.content := List.mem_map_of_mem mem
      rw [numbered_contents] at content
      obtain ⟨item, mem, eq⟩ := List.mem_map.mp content
      rw [← eq]
      exact (mem_bodyItems mem).2 0
    · rw [List.length_mapIdx, List.length_map, BitVec.toNat_ofNat]
      omega
  have usable := usableEpoch_complete (ps := entriesAt (numbered 1 (snapshotOf d epoch))) (epoch := BitVec.ofNat 32 epoch) (k := 0)
    (by rw [snapshotOf, numbered_cons]; rfl) (Nat.zero_le 2) (by rw [validEntries_entriesAt, snapshotOf, numbered_cons]) rfl complete
  rw [usable, word]

theorem snapshotOf_rebuilds (fits : ∀ v : Vol, ∀ x ∈ d[v], x.Fits) :
    let r := rebuild (entriesAt (numbered 1 (snapshotOf d epoch)))
    r.ended = true ∧ r.skipped = 0 ∧ r.dir = d.map (fun x => x.map Volume.durable) := by
  obtain ⟨t, read, ended, skipped, dir⟩ := Rebuild.read_volumes (List.finRange 32) (r := Rebuild.start) (d := d) rfl
    (List.nodup_finRange 32) (fun v _ => by simp [Rebuild.start]) fits
  have whole : rebuild (entriesAt (numbered 1 (snapshotOf d epoch))) = { t with ended := true } := by
    rw [rebuild, foldl_entriesAt, numbered_contents, snapshotOf, snapshotRecords_eq, List.foldl_cons, List.foldl_append]
    rw [show Rebuild.start.read (.header (BitVec.ofNat 32 epoch)) = Rebuild.start from rfl, bodyItems, read, List.foldl_cons,
      List.foldl_nil, Rebuild.read, rebuildEntry, ended]
    rfl
  rw [whole]
  refine ⟨rfl, skipped, Vector.ext fun i inside => ?_⟩
  have entry := dir ⟨i, inside⟩
  rw [if_pos (List.mem_finRange _)] at entry
  rw [Vector.getElem_map]
  exact entry

end

/-- Settles O50: the entries are valid in order, the snapshot complete, and each volume read from its three records. -/
theorem snapshotsRebuildTheDirectory : Obligations.SnapshotsRebuildTheDirectory := by
  intro d epoch low high ranges records positions
  have fits : ∀ v : Vol, ∀ x ∈ d[v], x.Fits := fun v x mem => by
    obtain ⟨size1, size2, a1, a2, b1, b2, counter, images⟩ := ranges v x mem
    exact ⟨by simp [placed, size1, size2, a1, a2, b1, b2], counter, images⟩
  have same : positions = entriesAt (numbered 1 (snapshotOf d epoch)) := by
    rw [entriesAt, numbered]
    refine List.mapIdx_eq_iff.mpr fun i => ?_
    rw [List.getElem?_map, List.getElem?_mapIdx, Option.map_map, Nat.add_comm]
    rfl
  obtain ⟨ended, skipped, dir⟩ := snapshotOf_rebuilds d (epoch := epoch) fits
  rw [same]
  refine ⟨snapshotOf_valid d, snapshotOf_usable d low high, ?_⟩
  rw [show (fun (x : Option Volume) => x.map (fun y => { y with deleting := false })) = fun x => x.map Volume.durable from rfl, ← dir,
    ← ended, ← skipped]

end Sys2Proof.Machine
end

section
/-! The bytes of the journal sectors as replay reads them, and what each kind of array work makes of the positions (R2, R113). -/

namespace Sys2Proof.Machine

/-! ### Bytes whose content is defined -/

/-- A byte of the array, unless its content is undefined (R2). -/
def Store.known (st : Store) (a : Nat) : Option Byte :=
  match drawIn st.spoiled a with
  | some _ => none
  | none => some ((cellAt st.cells a).getD erasedByte)

section
variable (st : Store)

theorem Store.known_none (a : Nat) : st.known a = none ↔ ∃ x ∈ st.spoiled, x.lo ≤ a ∧ a < x.hi := by
  constructor
  · intro undefined
    by_contra clear
    have none : drawIn st.spoiled a = none := drawIn_none fun x mem holds => clear ⟨x, mem, holds⟩
    rw [Store.known, none] at undefined
    cases undefined
  · rintro ⟨x, mem, holds⟩
    have found : (drawIn st.spoiled a).isSome = true := by
      rw [drawIn, Option.isSome_map, List.find?_isSome]
      exact ⟨x, mem, Area.holds_iff.mpr holds⟩
    obtain ⟨d, found⟩ := Option.isSome_iff_exists.mp found
    rw [Store.known, found]

theorem Store.known_read {a : Nat} {b : Byte} (known : st.known a = some b) : st.read a = b := by
  cases found : drawIn st.spoiled a with
  | some d => simp only [Store.known, found, reduceCtorEq] at known
  | none =>
    simp only [Store.known, found, Option.some.injEq] at known
    simpa only [Store.read_eq, found] using known

theorem Store.known_program (lo : Nat) (bs : List Byte) (a : Nat) :
    (st.program lo bs).known a = if lo ≤ a ∧ a < lo + bs.length then bs[a - lo]? else st.known a := by
  have le := Nat.le_add_right lo bs.length
  have cells := cellAt_around st.cells (cellsFrom lo bs) le a
    (fun c mem => ⟨((cellsFrom_rises bs lo).1 c mem).1, ((cellsFrom_rises bs lo).1 c mem).2.1⟩)
  rw [Store.known, Store.known, Store.program]
  dsimp only
  rw [drawIn_areasOutside st.spoiled le, cells]
  by_cases inside : lo ≤ a ∧ a < lo + bs.length
  · simp only [if_pos inside]
    rw [cellAt_cellsFrom bs lo a inside.1, List.getD_eq_getElem _ _ (by omega), List.getElem?_eq_getElem]
  · simp only [if_neg inside]

theorem Store.known_eraseSector (n a : Nat) :
    (st.eraseSector n).known a = if n * 65536 ≤ a ∧ a < n * 65536 + 65536 then some erasedByte else st.known a := by
  have le := Nat.le_add_right (sectorBase n) Config.sectorBytes
  have cells := cellAt_around st.cells [] le a (fun c mem => nomatch mem)
  rw [List.append_nil] at cells
  rw [Store.known, Store.known, Store.eraseSector]
  dsimp only
  have stretch : sectorBase n ≤ a ∧ a < sectorBase n + Config.sectorBytes ↔ n * 65536 ≤ a ∧ a < n * 65536 + 65536 := by
    rw [sectorBase, Config.sectorBytes]
  rw [drawIn_areasOutside st.spoiled le, cells]
  by_cases inside : n * 65536 ≤ a ∧ a < n * 65536 + 65536
  · simp only [if_pos inside, if_pos (stretch.mpr inside)]
    rfl
  · simp only [if_neg inside, if_neg (fun h => inside (stretch.mp h))]

theorem Store.known_spoil (lo n a : Nat) (pos : 0 < n) (inside : lo + n ≤ 33554432) :
    (st.spoil lo n).known a = if lo ≤ a ∧ a < lo + n then none else st.known a := by
  rw [Store.known, Store.known, st.drawIn_spoil lo n a pos inside, st.cellAt_spoil lo n a pos inside]
  by_cases within : lo ≤ a ∧ a < lo + n
  · simp only [if_pos within]
  · simp only [if_neg within]

/-- Work that a spoil leaves undefined, wherever it lies, touches no byte outside it. -/
theorem Store.known_spoil_other {lo n a : Nat} (outside : ¬(lo ≤ a ∧ a < lo + n)) : (st.spoil lo n).known a = st.known a := by
  by_cases inside : 0 < n ∧ lo + n ≤ 33554432
  · rw [st.known_spoil lo n a inside.1 inside.2, if_neg outside]
  · rw [Store.spoil, if_neg (by simpa only [Config.arrayBytes] using inside)]

end

/-! ### Positions by their bytes -/

theorem recordCode_ne (r : JRecord) : recordCode r ≠ erasedByte := by cases r <;> simp [recordCode, erasedByte]

/-- A position by its bytes (R113), undefined ones among them. -/
def positionOf (bytes : List (Option Byte)) : Option (Option JEntry) :=
  if bytes.any Option.isNone then some none
  else if bytes.all (fun b => b == some erasedByte) then none
  else some (entryOf (bytes.map (fun b => b.getD erasedByte)))

theorem Area.meets_iff {x : Area} {lo hi : Nat} : x.meets lo hi = true ↔ x.lo < hi ∧ lo < x.hi := by simp [Area.meets]

theorem positionBytes_eq : Config.positionBytes = 32 := rfl

/-- No area of undefined content is empty. -/
def Store.Proper (st : Store) : Prop := ∀ x ∈ st.spoiled, x.lo < x.hi

theorem Store.proper_of_wf {st : Store} (wf : st.wf = true) : st.Proper := ((Store.wf_iff st).mp wf).2.1

/-- The bytes of a position (R112). -/
def Store.positionBytes (st : Store) (j : JSector) (k : Nat) : List (Option Byte) :=
  (List.range 32).map (fun i => st.known (positionBase j k + i))

theorem rawPosition_eq {st : Store} (proper : st.Proper) (j : JSector) (k : Nat) : rawPosition st j k = positionOf (st.positionBytes j k) := by
  have undefined : st.spoiled.any (fun x => x.meets (positionBase j k) (positionBase j k + Config.positionBytes))
      = (st.positionBytes j k).any Option.isNone := by
    rw [Bool.eq_iff_iff, List.any_eq_true, List.any_eq_true]
    constructor
    · rintro ⟨x, mem, meets⟩
      have meets := Area.meets_iff.mp meets
      rw [positionBytes_eq] at meets
      have := proper x mem
      have none : st.known (positionBase j k + (x.lo - positionBase j k)) = none := (st.known_none _).mpr ⟨x, mem, by omega, by omega⟩
      exact ⟨_, List.mem_map.mpr ⟨x.lo - positionBase j k, List.mem_range.mpr (by omega), rfl⟩, by rw [none]; rfl⟩
    · rintro ⟨b, mem, none⟩
      obtain ⟨i, inside, rfl⟩ := List.mem_map.mp mem
      have inside := List.mem_range.mp inside
      obtain ⟨x, mem, low, high⟩ := (st.known_none _).mp (Option.isNone_iff_eq_none.mp none)
      exact ⟨x, mem, Area.meets_iff.mpr (by rw [positionBytes_eq]; omega)⟩
  unfold rawPosition positionOf
  dsimp only
  rw [undefined]
  split
  · rfl
  · rename_i defined
    have bytes : st.positionBytes j k = (st.readBytes (positionBase j k) Config.positionBytes).map some := by
      rw [Store.readBytes_eq, Store.positionBytes, List.map_map]
      refine List.map_congr_left fun i mem => ?_
      cases known : st.known (positionBase j k + i) with
      | none => exact absurd (List.any_eq_true.mpr ⟨none, List.mem_map.mpr ⟨i, mem, known⟩, rfl⟩) defined
      | some b => rw [Function.comp, st.known_read known]
    rw [bytes, List.all_map, List.map_map, show ((fun b : Option Byte => b.getD erasedByte) ∘ some) = id from rfl, List.map_id]
    rfl

/-- The 2,048 positions of a journal sector by their bytes alone. -/
def rawSector (st : Store) (j : JSector) : List (Option (Option JEntry)) := (List.range 2048).map (rawPosition st j)

theorem rawSector_length (st : Store) (j : JSector) : (rawSector st j).length = 2048 := by
  rw [rawSector, List.length_map, List.length_range]

theorem positionBase_le {j : JSector} {k : Nat} (inside : k < 2048) :
    positionBase j 0 ≤ positionBase j k ∧ positionBase j k + 32 ≤ positionBase j 2048 := by
  simp only [positionBase, Config.positionBytes]
  omega

/-- The part of the store near a sector decides its positions, as the whole store does. -/
theorem rawPosition_near (st : Store) (j : JSector) {k : Nat} (inside : k < 2048) :
    rawPosition (st.within (positionBase j 0) (positionBase j 2048)) j k = rawPosition st j k := by
  obtain ⟨low, high⟩ := positionBase_le (j := j) inside
  have bytes : (st.within (positionBase j 0) (positionBase j 2048)).readBytes (positionBase j k) Config.positionBytes
      = st.readBytes (positionBase j k) Config.positionBytes := by
    rw [Store.readBytes_eq, Store.readBytes_eq]
    refine List.map_congr_left fun i mem => Store.read_within _ _ _ _ (by omega) ?_
    have := List.mem_range.mp mem
    rw [positionBytes_eq] at this
    omega
  have areas : (st.within (positionBase j 0) (positionBase j 2048)).spoiled.any
        (fun x => x.meets (positionBase j k) (positionBase j k + Config.positionBytes))
      = st.spoiled.any (fun x => x.meets (positionBase j k) (positionBase j k + Config.positionBytes)) := by
    rw [Store.within, List.any_filter]
    congr 1
    funext x
    cases meets : x.meets (positionBase j k) (positionBase j k + Config.positionBytes) with
    | false => exact Bool.and_false _
    | true =>
      have meets := Area.meets_iff.mp meets
      rw [positionBytes_eq] at meets
      rw [Area.meets_iff.mpr (by omega), Bool.and_self]
  rw [rawPosition, rawPosition, bytes]
  dsimp only
  rw [areas]

/-- Replay judges the positions by their bytes (R113). -/
theorem judged_eq (st : Store) (j : JSector) : judged st j = classify none (rawSector st j) :=
  congrArg (classify none) (List.map_congr_left fun _ mem => rawPosition_near st j (List.mem_range.mp mem))

/-! ### Array work and the positions -/

/-- The bytes of a journal sector (R112). -/
def inSector (j : JSector) (a : Nat) : Prop := jsectorNumber j * 65536 ≤ a ∧ a < jsectorNumber j * 65536 + 65536

section
variable {st st' : Store} (proper : st.Proper) (proper' : st'.Proper) {j : JSector}
include proper proper'

theorem rawPosition_congr {k : Nat} (same : ∀ i < 32, st'.known (positionBase j k + i) = st.known (positionBase j k + i)) :
    rawPosition st' j k = rawPosition st j k := by
  rw [rawPosition_eq proper', rawPosition_eq proper]
  exact congrArg _ (List.map_congr_left fun i mem => same i (List.mem_range.mp mem))

theorem rawSector_congr (same : ∀ a, inSector j a → st'.known a = st.known a) : rawSector st' j = rawSector st j := by
  refine List.map_congr_left fun k mem => rawPosition_congr proper proper' fun i inside => same _ ?_
  obtain ⟨low, high⟩ := positionBase_inside (j := j) (k := k) (List.mem_range.mp mem)
  exact ⟨by omega, by omega⟩

theorem judged_congr (same : ∀ a, inSector j a → st'.known a = st.known a) : judged st' j = judged st j := by
  rw [judged_eq, judged_eq, rawSector_congr proper proper' same]

/-- Work on the bytes of one position changes that position alone. -/
theorem rawSector_set {k : Nat}
    (same : ∀ a, ¬(positionBase j k ≤ a ∧ a < positionBase j k + 32) → st'.known a = st.known a) :
    rawSector st' j = (rawSector st j).set k (rawPosition st' j k) := by
  apply List.ext_getElem
  · rw [List.length_set, rawSector_length, rawSector_length]
  · intro i within _
    rw [List.getElem_set]
    simp only [rawSector, List.getElem_map, List.getElem_range]
    split
    · rename_i e
      rw [e]
    · rename_i ne
      refine rawPosition_congr proper proper' fun n short => same _ ?_
      simp only [positionBase, Config.positionBytes]
      omega

end

section
variable {st' : Store} (proper' : st'.Proper) {j : JSector}
include proper'

theorem rawPosition_undefined {k : Nat} (undefined : st'.known (positionBase j k) = none) : rawPosition st' j k = some none := by
  have some : (st'.positionBytes j k).any Option.isNone = true :=
    List.any_eq_true.mpr ⟨none, List.mem_map.mpr ⟨0, List.mem_range.mpr (Nat.zero_lt_succ 31), by rw [Nat.add_zero, undefined]⟩, rfl⟩
  rw [rawPosition_eq proper', positionOf, if_pos some]

theorem rawPosition_blank_of_erased {k : Nat} (erased : ∀ i < 32, st'.known (positionBase j k + i) = some erasedByte) :
    rawPosition st' j k = none := by
  have each : ∀ b ∈ st'.positionBytes j k, b = some erasedByte := fun b mem => by
    obtain ⟨i, inside, rfl⟩ := List.mem_map.mp mem
    exact erased i (List.mem_range.mp inside)
  rw [rawPosition_eq proper', positionOf, if_neg, if_pos]
  · exact List.all_eq_true.mpr fun b mem => by rw [each b mem, beq_self_eq_true]
  · intro some
    obtain ⟨b, mem, none⟩ := List.any_eq_true.mp some
    rw [each b mem] at none
    cases none

/-- A position that holds the bytes of an entry holds the entry (R113, R182). -/
theorem rawPosition_of_entry {k : Nat} {e : JEntry}
    (bytes : ∀ i < 32, st'.known (positionBase j k + i) = (entryBytes e)[i]?) : rawPosition st' j k = some (some e) := by
  have length : (entryBytes e).length = 32 := entryBytes_length e
  have all : st'.positionBytes j k = (entryBytes e).map some := by
    apply List.ext_getElem
    · rw [Store.positionBytes, List.length_map, List.length_map, List.length_range, length]
    · intro i _ inside
      rw [List.length_map, length] at inside
      simp only [Store.positionBytes, List.getElem_map, List.getElem_range]
      rw [bytes i inside, List.getElem?_eq_getElem]
  have code : (entryBytes e)[0]? = some (recordCode e.content) := rfl
  rw [rawPosition_eq proper', positionOf, all, if_neg, if_neg, List.map_map, show ((fun b : Option Byte => b.getD erasedByte) ∘ some) = id from rfl,
    List.map_id, entryOf_entryBytes]
  · intro blank
    have mem : some (recordCode e.content) ∈ (entryBytes e).map some := List.mem_map_of_mem (List.mem_of_getElem? code)
    have erased := List.all_eq_true.mp blank _ mem
    exact recordCode_ne e.content (Option.some.inj (beq_iff_eq.mp erased))
  · intro some
    obtain ⟨b, mem, none⟩ := List.any_eq_true.mp some
    obtain ⟨c, -, rfl⟩ := List.mem_map.mp mem
    cases none

end

/-! ### The work of the part -/

section
variable (st : Store) {j : JSector}

theorem jsectorNumber_le (j : JSector) : jsectorNumber j ≤ 256 := by cases j <;> decide

theorem inSector_other {a : Nat} (here : inSector j a) : ¬inSector j.other a := by
  cases j <;> simp only [inSector, jsectorNumber, JSector.other] at here ⊢ <;> omega

theorem inSector_number {n a : Nat} (here : inSector j a) (sector : n * 65536 ≤ a ∧ a < n * 65536 + 65536) : n = jsectorNumber j := by
  unfold inSector at here
  omega

theorem inSector_position {k a : Nat} (inside : k < 2048) (here : positionBase j k ≤ a ∧ a < positionBase j k + 32) : inSector j a := by
  have := positionBase_inside (j := j) inside
  exact ⟨by omega, by omega⟩

variable (wf : st.wf = true)
include wf

/-- An entry that is programmed stands at its position, and nothing else changes (R113, R114). -/
theorem rawSector_entry {k : Nat} (e : JEntry) (inside : k < 2048) :
    rawSector (st.program (positionBase j k) (entryBytes e)) j = (rawSector st j).set k (some (some e)) := by
  have proper' := Store.proper_of_wf (st.entry_wf j k e wf inside)
  have length : (entryBytes e).length = 32 := entryBytes_length e
  rw [rawSector_set (Store.proper_of_wf wf) proper' fun a outside => by rw [st.known_program, length, if_neg outside],
    rawPosition_of_entry proper' fun i short => by
      rw [st.known_program, length, if_pos ⟨by omega, by omega⟩, Nat.add_sub_cancel_left]]

theorem rawSector_spoilPosition {k : Nat} (inside : k < 2048) :
    rawSector (st.spoilPosition j k) j = (rawSector st j).set k (some none) := by
  have proper' := Store.proper_of_wf (st.spoilPosition_wf wf j k)
  have fits : positionBase j k + 32 ≤ 33554432 := positionBase_fits j k inside
  rw [rawSector_set (Store.proper_of_wf wf) proper' fun a outside => st.known_spoil_other outside,
    rawPosition_undefined proper' (by
      rw [Store.spoilPosition, positionBytes_eq, st.known_spoil _ _ _ (by decide) fits,
        if_pos ⟨Nat.le_refl _, Nat.lt_add_of_pos_right (by decide)⟩])]

theorem rawSector_eraseSector : rawSector (st.eraseSector (jsectorNumber j)) j = List.replicate 2048 none := by
  have proper' := Store.proper_of_wf (st.eraseSector_wf (jsectorNumber j) wf)
  refine List.eq_replicate_iff.mpr ⟨rawSector_length _ _, fun p mem => ?_⟩
  obtain ⟨k, within, rfl⟩ := List.mem_map.mp mem
  have within := positionBase_inside (j := j) (List.mem_range.mp within)
  exact rawPosition_blank_of_erased proper' fun i short => by rw [st.known_eraseSector, if_pos ⟨by omega, by omega⟩]

theorem rawSector_spoilSector : rawSector (st.spoilSector (jsectorNumber j)) j = List.replicate 2048 (some none) := by
  have proper' := Store.proper_of_wf (st.spoilSector_wf wf (jsectorNumber j))
  have fits : jsectorNumber j * 65536 + 65536 ≤ 33554432 := by have := jsectorNumber_le j; omega
  refine List.eq_replicate_iff.mpr ⟨rawSector_length _ _, fun p mem => ?_⟩
  obtain ⟨k, within, rfl⟩ := List.mem_map.mp mem
  have within := positionBase_inside (j := j) (List.mem_range.mp within)
  refine rawPosition_undefined proper' ?_
  have : sectorBase (jsectorNumber j) = jsectorNumber j * 65536 := by simp only [sectorBase, Config.sectorBytes]
  have bytes : Config.sectorBytes = 65536 := by simp only [Config.sectorBytes]
  rw [Store.spoilSector, this, bytes, st.known_spoil _ _ _ (by decide) fits, if_pos ⟨within.1, by omega⟩]

end

end Sys2Proof.Machine
end

section
/-! What replay makes of a sector: the epoch, the choice of the sector, and the directory, position by position (R122 to R125). -/

namespace Sys2Proof.Machine

/-! ### Valid entries and the epoch of a sector -/

section
variable (ps qs : List (Option (Option JEntry)))

theorem firstValid_append (k : Nat) : firstValid k (ps ++ qs) = (firstValid k ps).or (firstValid (k + ps.length) qs) := by
  induction ps generalizing k with
  | nil => rfl
  | cons p rest ih =>
    rw [List.length_cons, Nat.add_comm rest.length, ← Nat.add_assoc]
    rcases p with _ | _ | e
    · exact ih (k + 1)
    · exact ih (k + 1)
    · rfl

theorem firstValid_none (k : Nat) : firstValid k ps = none ↔ validEntries ps = [] := by
  induction ps generalizing k with
  | nil => exact ⟨fun _ => rfl, fun _ => rfl⟩
  | cons p rest ih =>
    rcases p with _ | _ | e
    · exact ih (k + 1)
    · exact ih (k + 1)
    · exact ⟨nofun, nofun⟩

theorem validEntries_blank (n : Nat) : validEntries (List.replicate n none) = [] := by
  induction n with
  | zero => rfl
  | succ n ih => rw [List.replicate_succ]; exact ih

theorem validEntries_invalid (n : Nat) : validEntries (List.replicate n (some none)) = [] := by
  induction n with
  | zero => rfl
  | succ n ih => rw [List.replicate_succ]; exact ih

theorem snapshotComplete_append (n : Nat) (es fs : List JEntry) (complete : snapshotComplete n es = true) :
    snapshotComplete n (es ++ fs) = true := by
  induction es generalizing n with
  | nil => cases complete
  | cons e rest ih =>
    rw [List.cons_append, snapshotComplete]
    rw [snapshotComplete] at complete
    cases content : e.content <;> simp only [content] at complete ⊢
    case snapVol => exact ih _ complete
    case snapSlot => exact ih _ complete
    case snapEnd => exact complete
    all_goals cases complete

/-- A sector is usable by its first valid entries (R122). -/
theorem usableEpoch_some {epoch : Nat} : usableEpoch ps = some epoch ↔ ∃ k e rest w, firstValid 0 ps = some k ∧ k ≤ 2
    ∧ validEntries ps = e :: rest ∧ e.content = .header w ∧ snapshotComplete 1 rest = true ∧ w.toNat = epoch := by
  constructor
  · intro usable
    unfold usableEpoch at usable
    split at usable
    · cases usable
    rename_i k first
    split at usable
    swap
    · cases usable
    rename_i near
    split at usable
    · cases usable
    rename_i e rest entries
    split at usable <;> try cases usable
    rename_i w header
    split at usable
    swap
    · cases usable
    rename_i complete
    exact ⟨k, e, rest, w, first, near, entries, header, complete, Option.some.inj usable⟩
  · rintro ⟨k, e, rest, w, first, near, entries, header, complete, rfl⟩
    exact usableEpoch_complete first near entries header complete

variable {ps qs}

/-- Positions without an entry at the end do not matter. -/
theorem usableEpoch_append_void (void : validEntries qs = []) : usableEpoch (ps ++ qs) = usableEpoch ps := by
  have first : firstValid 0 (ps ++ qs) = firstValid 0 ps := by
    rw [firstValid_append, (firstValid_none qs _).mpr void, Option.or_none]
  have entries : validEntries (ps ++ qs) = validEntries ps := by rw [validEntries_append, void, List.append_nil]
  rw [usableEpoch, usableEpoch, first, entries]

/-- Nothing that follows the snapshot changes the epoch. -/
theorem usableEpoch_append {epoch : Nat} (usable : usableEpoch ps = some epoch) : usableEpoch (ps ++ qs) = some epoch := by
  obtain ⟨k, e, rest, w, first, near, entries, header, complete, eq⟩ := (usableEpoch_some ps).mp usable
  refine (usableEpoch_some _).mpr ⟨k, e, rest ++ validEntries qs, w, ?_, near, ?_, header, snapshotComplete_append 1 rest _ complete, eq⟩
  · rw [firstValid_append, first]
    rfl
  · rw [validEntries_append, entries]
    rfl

theorem usableEpoch_void (void : validEntries ps = []) : usableEpoch ps = none := by
  rw [usableEpoch, (firstValid_none ps 0).mpr void]

theorem usableEpoch_lt {epoch : Nat} (usable : usableEpoch ps = some epoch) : epoch ≤ 4294967295 := by
  obtain ⟨-, -, -, w, -, -, -, -, -, rfl⟩ := (usableEpoch_some ps).mp usable
  have := w.isLt
  omega

end

/-! ### The directory, position by position -/

theorem rebuild_append (ps qs : List (Option (Option JEntry))) : rebuild (ps ++ qs) = qs.foldl rebuildStep (rebuild ps) := List.foldl_append

theorem Rebuild.read_ended (r : Rebuild) (c : JRecord) : (r.read c).ended = (r.ended || isSnapEnd c) := by
  unfold Rebuild.read rebuildEntry
  cases ended : r.ended with
  | true =>
    rw [if_pos rfl]
    split <;> simp [Rebuild.skip, ended]
  | false =>
    rw [if_neg (by decide)]
    cases c with
    | snapVol b label size baseA baseB readers writers pinned gen =>
      simp only [rebuildVol, Rebuild.skip]
      split
      · exact ended
      · split <;> exact ended
    | snapSlot b slot state gen len crc =>
      simp only [rebuildSlot, Rebuild.skip]
      split
      · split
        · split <;> exact ended
        · exact ended
      · exact ended
    | snapEnd => rfl
    | _ => exact ended

/-- The SNAP_END has been read once a valid entry holds it (R123). -/
theorem foldl_rebuildStep_ended (ps : List (Option (Option JEntry))) (r : Rebuild) :
    (ps.foldl rebuildStep r).ended = (r.ended || (validEntries ps).any (fun e => isSnapEnd e.content)) := by
  induction ps generalizing r with
  | nil => exact (Bool.or_false _).symm
  | cons p rest ih =>
    rw [List.foldl_cons, ih]
    rcases p with _ | _ | e
    · rfl
    · rfl
    · rw [rebuildStep_valid, Rebuild.read_ended, Bool.or_assoc]
      rfl

theorem snapshotComplete_snapEnd {n : Nat} {es : List JEntry} (complete : snapshotComplete n es = true) :
    es.any (fun e => isSnapEnd e.content) = true := by
  induction es generalizing n with
  | nil => cases complete
  | cons e rest ih =>
    rw [snapshotComplete] at complete
    rw [List.any_cons]
    cases content : e.content <;> simp only [content] at complete
    case snapVol => exact Bool.or_eq_true_iff.mpr (.inr (ih complete))
    case snapSlot => exact Bool.or_eq_true_iff.mpr (.inr (ih complete))
    case snapEnd => rfl
    all_goals cases complete

/-- Replay of a usable sector reads past its SNAP_END (R122, R123). -/
theorem rebuild_ended {ps : List (Option (Option JEntry))} {epoch : Nat} (usable : usableEpoch ps = some epoch) :
    (rebuild ps).ended = true := by
  obtain ⟨k, e, rest, w, -, -, entries, -, complete, -⟩ := (usableEpoch_some ps).mp usable
  rw [rebuild, foldl_rebuildStep_ended, entries, List.any_cons, snapshotComplete_snapEnd complete, Bool.or_true, Bool.or_true]

/-- What replay has rebuilt, whatever it has counted. -/
structure Rebuild.Agrees (r t : Rebuild) : Prop where
  dir : t.dir = r.dir
  last : t.last = r.last
  ended : t.ended = r.ended

theorem Rebuild.Agrees.skip {r t : Rebuild} (h : r.Agrees t) : r.skip.Agrees t.skip := ⟨h.dir, h.last, h.ended⟩

theorem Rebuild.agrees_skip (r : Rebuild) : r.Agrees r.skip := ⟨rfl, rfl, rfl⟩

theorem Rebuild.Agrees.step {r t : Rebuild} (h : r.Agrees t) (p : Option (Option JEntry)) : (rebuildStep r p).Agrees (rebuildStep t p) := by
  obtain ⟨dir, last, ended, skipped⟩ := r
  obtain ⟨dir', last', ended', skipped'⟩ := t
  obtain ⟨rfl, rfl, rfl⟩ := h
  rcases p with _ | _ | e
  · exact ⟨rfl, rfl, rfl⟩
  · exact ⟨rfl, rfl, rfl⟩
  · simp only [rebuildStep, rebuildEntry, rebuildVol, rebuildSlot, Rebuild.skip]
    split
    · split <;> exact ⟨rfl, rfl, rfl⟩
    · cases e.content with
      | snapVol =>
        dsimp only
        split
        · exact ⟨rfl, rfl, rfl⟩
        · split <;> exact ⟨rfl, rfl, rfl⟩
      | snapSlot =>
        dsimp only
        split
        · split
          · split <;> exact ⟨rfl, rfl, rfl⟩
          · exact ⟨rfl, rfl, rfl⟩
        · exact ⟨rfl, rfl, rfl⟩
      | _ => exact ⟨rfl, rfl, rfl⟩

theorem Rebuild.Agrees.foldl {r t : Rebuild} (h : r.Agrees t) (ps : List (Option (Option JEntry))) :
    (ps.foldl rebuildStep r).Agrees (ps.foldl rebuildStep t) := by
  induction ps generalizing r t with
  | nil => exact h
  | cons p rest ih => exact ih (h.step p)

/-! ### The choice of the sector (R122) -/

theorem epochNewer_iff (e f : Nat) : epochNewer e f = true ↔ e = f + 1 ∨ (e = 1 ∧ f = 4294967295) := by
  simp [epochNewer, Config.wordMax]

theorem chooseSector_none {e0 e1 : Option Nat} : chooseSector e0 e1 = none ↔ e0 = none ∧ e1 = none := by
  cases e0 <;> cases e1 <;> simp [chooseSector]
  split
  · simp
  · split
    · simp
    · split <;> simp

/-- J0 is chosen when it alone is usable, or is newer, or neither is newer and it is not lower. -/
theorem chooseSector_j0 {e0 e1 : Option Nat} {j : JSector} {epoch : Nat} (chosen : chooseSector e0 e1 = some (j, epoch)) :
    (j = .j0 ↔ ∃ e, e0 = some e ∧ (e1 = none ∨ ∃ f, e1 = some f
      ∧ (epochNewer e f = true ∨ (¬epochNewer f e = true ∧ f ≤ e)))) ∧ (if j = .j0 then e0 else e1) = some epoch := by
  cases e0 with
  | none =>
    cases e1 with
    | none => cases chosen
    | some f =>
      cases chosen
      exact ⟨⟨nofun, fun ⟨_, h, _⟩ => nomatch h⟩, rfl⟩
  | some e =>
    cases e1 with
    | none =>
      cases chosen
      exact ⟨⟨fun _ => ⟨_, rfl, .inl rfl⟩, fun _ => rfl⟩, rfl⟩
    | some f =>
      have named : (∃ x, some e = some x ∧ (some f = none ∨ ∃ y, some f = some y ∧ (epochNewer x y = true ∨ (¬epochNewer y x = true ∧ y ≤ x))))
          ↔ (epochNewer e f = true ∨ (¬epochNewer f e = true ∧ f ≤ e)) := by simp
      rw [named]
      rw [chooseSector] at chosen
      split at chosen
      · rename_i newer
        cases chosen
        exact ⟨⟨fun _ => .inl newer, fun _ => rfl⟩, rfl⟩
      · rename_i older
        split at chosen
        · rename_i newer
          cases chosen
          exact ⟨⟨fun h => (nomatch h), fun h => (h.elim older fun h => h.1 newer).elim⟩, rfl⟩
        · rename_i apart
          split at chosen
          · rename_i higher
            cases chosen
            exact ⟨⟨fun h => (nomatch h), fun h => (h.elim older fun h => Nat.not_lt.mpr h.2 higher).elim⟩, rfl⟩
          · rename_i lower
            cases chosen
            exact ⟨⟨fun _ => .inr ⟨apart, Nat.not_lt.mp lower⟩, fun _ => rfl⟩, rfl⟩

/-! ### What replay leaves of the volumes (R125) -/

/-- No volume of a directory has its deletion flag set. -/
def allDurable (d : Directory) : Prop := ∀ v : Vol, ∀ x ∈ d[v], x.deleting = false

theorem allDurable.set {d : Directory} (h : allDurable d) (v : Vol) {y : Option Volume} (new : ∀ x ∈ y, x.deleting = false) :
    allDurable (d.set v y) := fun w x mem => by
  rw [directory_set_get] at mem
  split at mem
  · exact new x mem
  · exact h w x mem

theorem Effect.durable {r : JRecord} {x y : Option Volume} (h : Effect r x y) (before : ∀ z ∈ x, z.deleting = false) :
    ∀ z ∈ y, z.deleting = false := fun z mem => by
  have setSlot (x : Volume) (sl : Slot) (q : SlotRec) : (x.setSlot sl q).deleting = x.deleting := by cases sl <;> rfl
  cases h with
  | create => cases mem; rfl
  | delete => cases mem
  | access b rd wr x => cases mem; exact before x rfl
  | pin b x => cases mem; exact before x rfl
  | unpin b x => cases mem; exact before x rfl
  | stage b c sl x => cases mem; exact (setSlot x sl _).trans (before x rfl)
  | commit b c sl gen len crc x =>
    cases mem
    have := before x rfl
    simp only [Volume.commit]
    split <;> simp only [setSlot, this]
  | rollback b x => cases mem; exact before x rfl

theorem allDurable.rebuildStep {r : Rebuild} (h : allDurable r.dir) (p : Option (Option JEntry)) : allDurable (rebuildStep r p).dir := by
  have setSlot (x : Volume) (sl : Slot) (q : SlotRec) : (x.setSlot sl q).deleting = x.deleting := by cases sl <;> rfl
  rcases p with _ | _ | e
  · exact h
  · exact h
  · simp only [Sys2Proof.Machine.rebuildStep, rebuildEntry]
    split
    · split
      · rename_i d applies
        obtain ⟨v, y, -, effect, rfl⟩ := applyRecord_some applies
        exact h.set v (effect.durable (h v))
      · exact h
    · cases e.content with
      | snapVol =>
        simp only [rebuildVol]
        split
        · exact h
        · split
          · exact h.set _ fun x mem => by cases mem; rfl
          · exact h
      | snapSlot =>
        simp only [rebuildSlot]
        split
        · split
          · split
            · rename_i d changes
              obtain ⟨v, x, y, -, used, changed, rfl⟩ := onVolume_some changes
              cases changed
              exact h.set v fun z mem => by cases mem; exact (setSlot x _ _).trans (h v x used)
            · exact h
          · exact h
        · exact h
      | _ => exact h

theorem rebuild_durable (ps : List (Option (Option JEntry))) : allDurable (rebuild ps).dir := by
  have all (r : Rebuild) (h : allDurable r.dir) : allDurable (ps.foldl rebuildStep r).dir := by
    induction ps generalizing r with
    | nil => exact h
    | cons p rest ih => exact ih _ (h.rebuildStep p)
  exact all Rebuild.start fun v x mem => by simp [Rebuild.start] at mem

theorem endReplay_get (d : Directory) (v : Vol) : (endReplay d)[v] = (d[v]).map Volume.endSession := by
  simp [endReplay]

theorem SlotRec.endSession_notStaging (r : SlotRec) : r.endSession.state ≠ .staging := by
  unfold SlotRec.endSession
  split
  · exact nofun
  · rename_i other
    exact other

/-- A position is blank by its bytes alone (R113). -/
theorem classify_blank_iff (last : Option Word) (ps : List (Option (Option JEntry))) (i : Nat) (inside : i < ps.length)
    (inside' : i < (classify last ps).length) : (classify last ps)[i] = none ↔ ps[i] = none := by
  induction ps generalizing last i with
  | nil => cases inside
  | cons p rest ih =>
    cases i with
    | zero =>
      rcases p with _ | _ | e
      · exact Iff.rfl
      · exact Iff.rfl
      · refine ⟨fun h => ?_, fun h => nomatch h⟩
        cases last with
        | none => cases h
        | some q =>
          simp only [classify] at h
          split at h <;> cases h
    | succ i =>
      have within : i < rest.length := Nat.lt_of_succ_lt_succ inside
      rcases p with _ | _ | e
      · exact ih last i within _
      · exact ih last i within _
      · cases last with
        | none => exact ih (some e.seq) i within _
        | some q =>
          simp only [classify]
          split
          · exact ih (some e.seq) i within (by rw [classify_length]; exact within)
          · exact ih (some q) i within (by rw [classify_length]; exact within)

/-- A position of a sector is judged blank exactly if its bytes are 0xFF (R113), in a store of any form. -/
theorem judged_blank_iff (st : Store) (j : JSector) (k : Nat) (inside : k < 2048) (within : k < (judged st j).length) :
    (judged st j)[k] = none ↔ rawPosition st j k = none := by
  have same := judged_eq st j
  have raw : (rawSector st j)[k]'(by rw [rawSector_length]; exact inside) = rawPosition st j k := by
    simp only [rawSector, List.getElem_map, List.getElem_range]
  rw [← raw, ← classify_blank_iff none (rawSector st j) k (by rw [rawSector_length]; exact inside)
    (by rw [classify_length, rawSector_length]; exact inside)]
  simp only [same]


/-! ### Replay as a whole (R122 to R125) -/

/-- The sector that replay chooses and what it leaves of it. -/
theorem replay_chooses (st : Store) :
    let e0 := usableEpoch (judged st .j0)
    let e1 := usableEpoch (judged st .j1)
    let newer (a b : Nat) : Prop := a = b + 1 ∨ (a = 1 ∧ b = 4294967295)
    let stopped (r : SlotRec) : SlotRec := if r.state = .staging then { state := .stale, image := none } else r
    (e0 = none ∧ e1 = none ↔ replay st = none)
    ∧ ∀ r, replay st = some r →
      let positions := judged st r.journal.sector
      let b := positions.foldl rebuildStep { dir := Vector.replicate 32 none, last := none, ended := false, skipped := 0 }
      (r.journal.sector = .j0 ↔ ∃ e, e0 = some e ∧ (e1 = none ∨ ∃ f, e1 = some f ∧
        (newer e f ∨ (¬newer f e ∧ f ≤ e))))
      ∧ (if r.journal.sector = .j0 then e0 else e1) = some r.journal.epoch
      ∧ (∀ v : Vol, r.dir[v] = (b.dir[v]).map (fun x : Volume =>
          { x with slotA := stopped x.slotA, slotB := stopped x.slotB }))
      ∧ (∀ v : Vol, ∀ x ∈ r.dir[v], x.slotA.state ≠ .staging ∧ x.slotB.state ≠ .staging ∧ x.deleting = false)
      ∧ r.skipped = b.skipped ∧ r.skipped ≤ 4095 ∧ r.journal.append ≤ 2048
      ∧ (∀ k, r.journal.append ≤ k → k < 2048 → rawPosition st r.journal.sector k = none)
      ∧ (r.journal.append ≠ 0 → rawPosition st r.journal.sector (r.journal.append - 1) ≠ none)
      ∧ ∃ e, (validEntries positions).getLast? = some e ∧ r.journal.seq = e.seq.toNat + 1 := by
  intro e0 e1 newer stopped
  refine ⟨?_, fun r found => ?_⟩
  · rw [replay_eq, Option.map_eq_none_iff, chooseSector_none]
  · obtain ⟨append, skipped⟩ := replay_bounds found
    obtain ⟨j, epoch, chosen, rfl⟩ := replay_some found
    obtain ⟨sector, epochs⟩ := chooseSector_j0 chosen
    have usable : usableEpoch (judged st j) = some epoch := by
      rw [← epochs]
      cases j with
      | j0 => exact (if_pos rfl).symm
      | j1 => exact (if_neg (by decide)).symm
    have full : (judged st j).length = 2048 := judged_length st j
    simp only [epochNewer_iff] at sector
    simp only [replayOf_sector, replayOf_epoch, replayOf_append, replayOf_seq, replayOf_skipped, replayOf_dir, endReplay_get] at append skipped ⊢
    refine ⟨sector, epochs, fun v => rfl, fun v x mem => ?_, rfl, skipped, append, fun k after inside => ?_, fun some => ?_, ?_⟩
    · obtain ⟨y, used, rfl⟩ := Option.map_eq_some_iff.mp mem
      exact ⟨SlotRec.endSession_notStaging _, SlotRec.endSession_notStaging _, rebuild_durable _ v y used⟩
    · have within : k < (judged st j).length := by rwa [full]
      exact (judged_blank_iff st j k inside within).mp (appendAfter_blank 0 _ k within (by rw [Nat.zero_add]; exact after))
    · obtain ⟨i, within, here, there⟩ := appendAfter_last 0 (judged st j) some
      rw [here, Nat.zero_add, Nat.add_sub_cancel]
      intro blank
      rw [(judged_blank_iff st j i (by rwa [full] at within) within).mpr blank] at there
      cases there
    · obtain ⟨k, e, rest, w, -, -, entries, -⟩ := (usableEpoch_some _).mp usable
      have present : validEntries (judged st j) ≠ [] := by
        rw [entries]
        exact List.cons_ne_nil e rest
      refine ⟨(validEntries (judged st j)).getLast present, List.getLast?_eq_some_getLast present, ?_⟩
      rw [nextSeq, List.getLast?_eq_some_getLast present]

/-! ### One entry after the SNAP_END (R124) -/

section
variable {r : Rebuild} (ended : r.ended = true) {c : JRecord} {v : Vol}
include ended

theorem Rebuild.read_applies {d : Directory} (applies : applyRecord c r.dir = some d) : r.read c = { r with dir := d } := by
  simp only [Rebuild.read, rebuildEntry, ended, if_true, applies]

theorem Rebuild.read_unapplied (applies : applyRecord c r.dir = none) : r.read c = r.skip := by
  simp only [Rebuild.read, rebuildEntry, ended, if_true, applies]

theorem Rebuild.read_effect {x y : Option Volume} (named : volIndex (recordVol c) = some v) (before : r.dir[v] = x) (effect : Effect c x y) :
    r.read c = { r with dir := r.dir.set v y } :=
  Rebuild.read_applies ended (applyRecord_of_effect named (before ▸ effect))

/-- A record without an effect on its volume is skipped and counted. -/
theorem Rebuild.read_skips (none : ∀ w y, volIndex (recordVol c) = some w → ¬Effect c r.dir[w] y) : r.read c = r.skip := by
  refine Rebuild.read_unapplied ended ?_
  cases applies : applyRecord c r.dir with
  | none => rfl
  | some d =>
    obtain ⟨w, y, named, effect, -⟩ := applyRecord_some applies
    exact (none w y named effect).elim

end

theorem volIndex_named {b : Byte} {v w : Vol} (e : b = volByte v) (named : volIndex b = some w) : w = v := by
  rw [e, volIndex_volByte] at named
  exact (Option.some.inj named).symm

/-- Each entry after the SNAP_END is applied or skipped and counted, as the effect of its record says (R124). -/
theorem rebuildStep_after (r : Rebuild) (e : JEntry) (ended : r.ended = true) :
    let read : Rebuild := rebuildStep r (some (some e))
    let skips : Rebuild := { r with skipped := if r.skipped < 4095 then r.skipped + 1 else r.skipped }
    let back (x : SlotRec) : SlotRec :=
      if x.state = .previous then { x with state := .active }
      else if x.state = .active then { x with state := .stale } else x
    rebuildStep r none = r ∧ rebuildStep r (some none) = skips
    ∧ (31 < (recordVol e.content).toNat → read = skips)
    ∧ ((∃ n, e.content = .header n) ∨ (∃ n, e.content = .snapEnd n) ∨ isSnapBody e.content = true → read = skips)
    ∧ ∀ v : Vol,
      let becomes (x : Option Volume) : Rebuild := { r with dir := r.dir.set v x }
      (∀ label size a b rd wr, e.content = .create (volByte v) label size a b rd wr →
        read = if r.dir[v] = none ∧ 1 ≤ size.toNat ∧ size.toNat ≤ 64 ∧ 1 ≤ a.toNat ∧ a.toNat ≤ 255 ∧ 257 ≤ b.toNat
            ∧ b.toNat ≤ 511 then
          becomes (some { label := label, size := size.toNat, baseA := a.toNat, baseB := b.toNat, readers := rd.setWidth 4
                          writers := wr.setWidth 4, pinned := false, genCounter := 0
                          slotA := { state := .empty, image := none }, slotB := { state := .empty, image := none }
                          deleting := false })
          else skips)
      ∧ (r.dir[v] = none → (∀ label size a b rd wr, e.content ≠ .create (volByte v) label size a b rd wr) →
        recordVol e.content = volByte v → read = skips)
      ∧ ∀ x, r.dir[v] = some x →
        (e.content = .delete (volByte v) → read = becomes none)
        ∧ (∀ rd wr, e.content = .access (volByte v) rd wr →
          read = becomes (some { x with readers := rd.setWidth 4, writers := wr.setWidth 4 }))
        ∧ (e.content = .pin (volByte v) → read = becomes (some { x with pinned := true }))
        ∧ (e.content = .unpin (volByte v) → read = becomes (some { x with pinned := false }))
        ∧ (∀ sl, e.content = .stage (volByte v) (slotCode sl) →
          read = if (x.slot sl).state ≠ .active ∧ (x.slot sl.other).state ≠ .staging then
            becomes (some (x.setSlot sl { state := .staging, image := none })) else skips)
        ∧ (∀ sl gen len crc, e.content = .commit (volByte v) (slotCode sl) gen len crc →
          let y := x.setSlot sl { state := .active, image := some { gen := gen.toNat, len := len.toNat, crc := crc } }
          let former := x.slot sl.other
          let z := if former.state = .active then y.setSlot sl.other { former with state := .previous } else y
          read = if (x.slot sl).state = .staging ∧ gen.toNat = x.genCounter + 1 then
            becomes (some { z with genCounter := gen.toNat }) else skips)
        ∧ (e.content = .rollback (volByte v) →
          read = if x.slotA.state = .previous ∨ x.slotB.state = .previous then
            becomes (some { x with slotA := back x.slotA, slotB := back x.slotB }) else skips) := by
  intro read skips back
  have reads : read = r.read e.content := rebuildStep_valid r e
  have skipped : r.skip = skips := rfl
  refine ⟨rfl, rfl, fun beyond => ?_, fun kind => ?_, fun v => ⟨fun label size a b rd wr content => ?_, fun unused other named => ?_,
    fun x used => ⟨fun content => ?_, fun rd wr content => ?_, fun content => ?_, fun content => ?_, fun sl content => ?_,
      fun sl gen len crc content => ?_, fun content => ?_⟩⟩⟩
  · rw [reads, ← skipped]
    refine Rebuild.read_skips ended fun w y named => ?_
    rw [volIndex, dif_neg (by omega)] at named
    cases named
  · rw [reads, ← skipped]
    refine Rebuild.read_unapplied ended ?_
    rcases kind with ⟨n, content⟩ | ⟨n, content⟩ | body
    · rw [content]; rfl
    · rw [content]; rfl
    · cases content : e.content with
      | snapVol => rfl
      | snapSlot => rfl
      | _ =>
        rw [content] at body
        cases body
  · rw [reads, content, ← skipped]
    split
    · rename_i met
      obtain ⟨unused, size1, size2, a1, a2, b1, b2⟩ := met
      exact Rebuild.read_effect ended (volIndex_volByte v) unused (.create _ label size a b rd wr
        (by simp [placed, size1, size2, a1, a2, b1, b2]))
    · rename_i unmet
      refine Rebuild.read_skips ended fun w y named effect => unmet ?_
      cases volIndex_named rfl named
      generalize before : r.dir[v] = z at effect
      cases effect with
      | create _ _ _ _ _ _ _ fits => exact ⟨rfl, by simpa [placed, and_assoc] using fits⟩
  · rw [reads, ← skipped]
    refine Rebuild.read_skips ended fun w y here effect => ?_
    cases volIndex_named named here
    rw [unused] at effect
    generalize content : e.content = c at effect
    cases effect with
    | create b =>
      rw [content] at named
      exact other _ _ _ _ _ _ (content.trans (by rw [show b = volByte v from named]))
  · rw [reads, content]
    exact Rebuild.read_effect ended (volIndex_volByte v) used (.delete _ x)
  · rw [reads, content]
    exact Rebuild.read_effect ended (volIndex_volByte v) used (.access _ rd wr x)
  · rw [reads, content]
    exact Rebuild.read_effect ended (volIndex_volByte v) used (.pin _ x)
  · rw [reads, content]
    exact Rebuild.read_effect ended (volIndex_volByte v) used (.unpin _ x)
  · rw [reads, content, ← skipped]
    split
    · rename_i met
      exact Rebuild.read_effect ended (volIndex_volByte v) used (.stage _ _ sl x (slotOfCode_slotCode sl) met.1 met.2)
    · rename_i unmet
      refine Rebuild.read_skips ended fun w y named effect => unmet ?_
      cases volIndex_named rfl named
      rw [used] at effect
      cases effect with
      | stage _ _ sm _ slot notActive noStaging =>
        rw [slotOfCode_slotCode] at slot
        cases slot
        exact ⟨notActive, noStaging⟩
  · intro y former z
    rw [reads, content, ← skipped]
    split
    · rename_i met
      exact Rebuild.read_effect ended (volIndex_volByte v) used (.commit _ _ sl gen len crc x (slotOfCode_slotCode sl) met.1 met.2)
    · rename_i unmet
      refine Rebuild.read_skips ended fun w y named effect => unmet ?_
      cases volIndex_named rfl named
      rw [used] at effect
      cases effect with
      | commit _ _ sm _ _ _ _ slot staging next =>
        rw [slotOfCode_slotCode] at slot
        cases slot
        exact ⟨staging, next⟩
  · rw [reads, content, ← skipped]
    have back_eq (q : SlotRec) : q.rollback = back q := by
      unfold SlotRec.rollback
      cases state : q.state <;> simp [back, state]
    have found : (x.slotIn .previous).isSome = true ↔ x.slotA.state = .previous ∨ x.slotB.state = .previous := by
      unfold Volume.slotIn
      by_cases a : x.slotA.state = .previous <;> by_cases b : x.slotB.state = .previous <;> simp [a, b]
    split
    · rename_i met
      refine (Rebuild.read_effect (c := .rollback (volByte v)) ended (volIndex_volByte v) used (.rollback _ x (found.mpr met))).trans ?_
      rw [Volume.rollback, back_eq, back_eq]
    · rename_i unmet
      refine Rebuild.read_skips ended fun w y named effect => unmet ?_
      cases volIndex_named rfl named
      rw [used] at effect
      cases effect with
      | rollback _ _ previous => exact found.mp previous

end Sys2Proof.Machine
end

section
/-! What the work of the journal makes of a sector: an entry, a failed position, an erased and a spoiled sector, and the sector that
replay chooses then (R113 to R117, R122). -/

namespace Sys2Proof.Machine

/-! ### Positions that are written in order -/

/-- Every position from `k` on is blank. -/
def blankFrom (k : Nat) (ps : List (Option (Option JEntry))) : Prop := ∀ p ∈ ps.drop k, p = none

section
variable (ps : List (Option (Option JEntry))) {k : Nat}

theorem blankFrom_split (blank : blankFrom k ps) : ps = ps.take k ++ List.replicate (ps.length - k) none := by
  conv_lhs => rw [← List.take_append_drop k ps]
  congr 1
  exact List.eq_replicate_iff.mpr ⟨List.length_drop, blank⟩

theorem appendAfter_blankFrom : blankFrom (appendAfter 0 ps) ps := fun p mem => by
  obtain ⟨i, inside, rfl⟩ := List.getElem_of_mem mem
  rw [List.length_drop] at inside
  rw [List.getElem_drop]
  exact appendAfter_blank 0 ps _ (by omega) (by omega)

theorem appendAfter_blanks (k n : Nat) : appendAfter k (List.replicate n none) = 0 := by
  induction n generalizing k with
  | zero => rfl
  | succ n ih => simp only [List.replicate_succ, appendAfter, ih, if_true, Option.isSome_none, Bool.false_eq_true, if_false]

/-- The append point follows the last position that is not blank (R125). -/
theorem appendAfter_written (k n : Nat) {p : Option (Option JEntry)} (written : p.isSome = true) :
    appendAfter k (ps ++ p :: List.replicate n none) = k + ps.length + 1 := by
  induction ps generalizing k with
  | nil => simp only [List.nil_append, appendAfter, appendAfter_blanks, if_true, written, List.length_nil, Nat.add_zero]
  | cons q rest ih =>
    have later := ih (k + 1)
    rw [List.cons_append, appendAfter, if_neg (by omega), later, List.length_cons]
    omega

/-- A position classified blank was blank. -/
theorem classify_blankFrom (last : Option Word) (blank : blankFrom k (classify last ps)) : blankFrom k ps := fun p mem => by
  obtain ⟨i, inside, rfl⟩ := List.getElem_of_mem mem
  rw [List.length_drop] at inside
  rw [List.getElem_drop]
  have within : k + i < (classify last ps).length := by
    rw [classify_length]
    omega
  refine (classify_blank_iff last ps (k + i) (by omega) within).mp (blank _ ?_)
  rw [← List.getElem_drop (h := by rw [List.length_drop]; omega)]
  exact List.getElem_mem _

/-- A position written after the last one is judged by itself; those before it stay. -/
theorem classify_written (last : Option Word) {p : Option (Option JEntry)} (inside : k < ps.length) (blank : blankFrom k (classify last ps)) :
    classify last (ps.set k p) = (classify last ps).take k ++ classify (lastSeq last ((classify last ps).take k)) [p]
      ++ List.replicate (ps.length - k - 1) none := by
  have raw := blankFrom_split ps (classify_blankFrom ps last blank)
  have length : (ps.take k).length = k := by
    rw [List.length_take]
    omega
  have front : (classify last ps).take k = classify last (ps.take k) := by
    conv_lhs => rw [raw, classify_append]
    rw [List.take_left' (by rw [classify_length, length])]
  have set : ps.set k p = ps.take k ++ p :: List.replicate (ps.length - k - 1) none := by
    conv_lhs => rw [raw]
    rw [List.set_append_right _ _ (by rw [length]), length, Nat.sub_self]
    congr 1
    obtain ⟨n, rest⟩ : ∃ n, ps.length - k = n + 1 := ⟨ps.length - k - 1, by omega⟩
    rw [rest, List.replicate_succ, List.set_cons_zero, Nat.add_sub_cancel]
  rw [front, set, classify_append, List.append_assoc]
  congr 1
  rw [show p :: List.replicate (ps.length - k - 1) none = [p] ++ List.replicate (ps.length - k - 1) none from rfl, classify_append,
    classify_blank]

end

/-! ### The work of the journal on the sector it is in -/

section
variable (st : Store) (wf : st.wf = true) {j : JSector} {k : Nat} (inside : k < 2048) (blank : blankFrom k (judged st j))
include wf inside blank

theorem judged_spoilPosition :
    judged (st.spoilPosition j k) j = (judged st j).take k ++ some none :: List.replicate (2048 - k - 1) none := by
  have length := rawSector_length st j
  rw [judged_eq] at blank
  rw [judged_eq, judged_eq st, rawSector_spoilPosition st wf inside,
    classify_written (rawSector st j) none (by rwa [length]) blank, length, List.append_assoc]
  rfl

/-- An entry whose sequence number is above that of the last valid one is valid. -/
theorem judged_entry (e : JEntry) (above : ∀ q ∈ lastSeq none ((judged st j).take k), q.toNat < e.seq.toNat) :
    judged (st.program (positionBase j k) (entryBytes e)) j
      = (judged st j).take k ++ some (some e) :: List.replicate (2048 - k - 1) none := by
  have length := rawSector_length st j
  have valid : classify (lastSeq none ((judged st j).take k)) [some (some e)] = [some (some e)] := by
    cases last : lastSeq none ((judged st j).take k) with
    | none => rfl
    | some q => simp only [classify, above q last, if_true]
  rw [judged_eq] at blank valid
  rw [judged_eq, judged_eq st, rawSector_entry st wf e inside,
    classify_written (rawSector st j) none (by rwa [length]) blank, length, List.append_assoc, valid, List.singleton_append]

end

section
variable (st : Store) (wf : st.wf = true) (j : JSector)
include wf

theorem judged_eraseSector : judged (st.eraseSector (jsectorNumber j)) j = List.replicate 2048 none := by
  refine (judged_eq _ j).trans ?_
  simp only [rawSector_eraseSector st wf, classify_blank]

theorem judged_spoilSector : judged (st.spoilSector (jsectorNumber j)) j = List.replicate 2048 (some none) := by
  have invalid (n : Nat) : classify none (List.replicate n (some none)) = List.replicate n (some none) := by
    induction n with
    | zero => rfl
    | succ n ih => rw [List.replicate_succ, classify, ih]
  rw [judged_eq, rawSector_spoilSector st wf]
  exact invalid 2048

end

/-! ### The work of the part on other sectors -/

/-- No byte of a journal sector is touched. -/
def Untouched (st st' : Store) (j : JSector) : Prop := ∀ a, inSector j a → st'.known a = st.known a

section
variable (st : Store) {j : JSector}

theorem Untouched.judged {st st' : Store} (wf : st.wf = true) (wf' : st'.wf = true) (h : Untouched st st' j) : judged st' j = judged st j :=
  judged_congr (Store.proper_of_wf wf) (Store.proper_of_wf wf') h

theorem Untouched.eraseSector {n : Nat} (other : n ≠ jsectorNumber j) : Untouched st (st.eraseSector n) j := fun a here => by
  rw [st.known_eraseSector, if_neg fun sector => other (inSector_number here sector)]

theorem Untouched.spoilSector {n : Nat} (other : n ≠ jsectorNumber j) : Untouched st (st.spoilSector n) j := fun a here =>
  st.known_spoil_other fun sector => other (inSector_number here (by simpa only [sectorBase, Config.sectorBytes] using sector))

theorem Untouched.of_page {st' : Store} {n pg m : Nat} (other : n ≠ jsectorNumber j) (inside : pg < 256) (short : m ≤ 256)
    (same : ∀ a, ¬(pageBase n pg ≤ a ∧ a < pageBase n pg + m) → st'.known a = st.known a) : Untouched st st' j := fun a here =>
  same a fun page => other (inSector_number here (by
    have := pageBase_inside (n := n) inside short
    omega))

theorem Untouched.programPage {n pg : Nat} {bs : List Byte} (other : n ≠ jsectorNumber j) (inside : pg < 256) (short : bs.length ≤ 256) :
    Untouched st (st.program (pageBase n pg) bs) j :=
  .of_page st other inside short fun a outside => by rw [st.known_program, if_neg outside]

theorem Untouched.spoilPage {n pg : Nat} (other : n ≠ jsectorNumber j) (inside : pg < 256) : Untouched st (st.spoilPage n pg) j :=
  .of_page st other inside (Nat.le_refl 256) fun _ outside => st.known_spoil_other outside

theorem Untouched.of_position {st' : Store} {k : Nat} (inside : k < 2048)
    (same : ∀ a, ¬(positionBase j k ≤ a ∧ a < positionBase j k + 32) → st'.known a = st.known a) : Untouched st st' j.other := fun a here =>
  same a fun position => inSector_other (inSector_position inside position) here

theorem Untouched.entry {k : Nat} (inside : k < 2048) (e : JEntry) :
    Untouched st (st.program (positionBase j k) (entryBytes e)) j.other :=
  .of_position st inside fun a outside => by
    have length : (entryBytes e).length = 32 := entryBytes_length e
    rw [st.known_program, length, if_neg outside]

theorem Untouched.spoilPosition {k : Nat} (inside : k < 2048) : Untouched st (st.spoilPosition j k) j.other :=
  .of_position st inside fun _ outside => st.known_spoil_other outside

theorem judged_powerOn (wf : st.wf = true) : judged st.powerOn j = judged st j :=
  judged_congr (st := st) (st' := st.powerOn) (Store.proper_of_wf wf) (Store.proper_of_wf wf) fun _ _ => rfl

theorem jsectorNumber_other (j : JSector) : jsectorNumber j ≠ jsectorNumber j.other := by cases j <;> decide

end

/-! ### The sector that replay chooses (R122) -/

/-- The epoch of a journal sector, if it is usable (R122). -/
def usableAt (st : Store) (j : JSector) : Option Nat := usableEpoch (judged st j)

/-- The sector that replay rebuilds from, with its epoch (R122). -/
def chosen (st : Store) : Option (JSector × Nat) := chooseSector (usableAt st .j0) (usableAt st .j1)

section
variable {st st' : Store} {j : JSector} {epoch : Nat}

theorem replay_chosen (st : Store) : replay st = (chosen st).map (fun x => replayOf st x.1 x.2) := replay_eq st

theorem chosen_none : chosen st = none ↔ usableAt st .j0 = none ∧ usableAt st .j1 = none := chooseSector_none

theorem replay_none : replay st = none ↔ ∀ j, usableAt st j = none := by
  rw [replay_chosen, Option.map_eq_none_iff, chosen_none]
  exact ⟨fun h j => by cases j; exacts [h.1, h.2], fun h => ⟨h .j0, h .j1⟩⟩

theorem chosen_usable (h : chosen st = some (j, epoch)) : usableAt st j = some epoch := by
  have usable := (chooseSector_j0 h).2
  cases j with
  | j0 => rwa [if_pos rfl] at usable
  | j1 => rwa [if_neg (by decide)] at usable

/-- A sector that is usable alone is chosen. -/
theorem chosen_alone (usable : usableAt st j = some epoch) (other : usableAt st j.other = none) : chosen st = some (j, epoch) := by
  cases j with
  | j0 => rw [chosen, usable, show usableAt st .j1 = none from other]; rfl
  | j1 => rw [chosen, usable, show usableAt st .j0 = none from other]; rfl

/-- The chosen sector stays the chosen one when the other stays as it is, or is no longer usable. -/
theorem chosen_stays (h : chosen st = some (j, epoch)) (same : usableAt st' j = usableAt st j)
    (other : usableAt st' j.other = usableAt st j.other ∨ usableAt st' j.other = none) : chosen st' = some (j, epoch) := by
  have usable := chosen_usable h
  rcases other with stays | gone
  · rw [← h]
    cases j with
    | j0 => rw [chosen, chosen, same, show usableAt st' .j1 = usableAt st .j1 from stays]
    | j1 => rw [chosen, chosen, same, show usableAt st' .j0 = usableAt st .j0 from stays]
  · exact chosen_alone (same.trans usable) gone

/-- A sector of the next epoch is chosen (R118, R122). -/
theorem chosen_next (usable : usableAt st j = some epoch) (other : usableAt st j.other = some (nextEpoch epoch)) :
    chosen st = some (j.other, nextEpoch epoch) := by
  have newer : epochNewer (nextEpoch epoch) epoch = true := by
    rw [epochNewer_iff, nextEpoch, Config.wordMax]
    split <;> omega
  have older : ¬epochNewer epoch (nextEpoch epoch) = true := by
    rw [epochNewer_iff, nextEpoch, Config.wordMax]
    split <;> omega
  cases j with
  | j0 =>
    rw [chosen, usable, show usableAt st .j1 = some (nextEpoch epoch) from other, chooseSector, if_neg older, if_pos newer]
    rfl
  | j1 =>
    rw [chosen, usable, show usableAt st .j0 = some (nextEpoch epoch) from other, chooseSector, if_pos newer]
    rfl

theorem replayOf_congr (same : judged st' j = judged st j) (epoch : Nat) : replayOf st' j epoch = replayOf st j epoch := by
  simp only [replayOf, same]

/-- Replay finds what it found, in the sector that it found it in. -/
structure SameReplay (st st' : Store) : Prop where
  replay : replay st' = replay st
  judged : ∀ r ∈ Machine.replay st, judged st' r.journal.sector = judged st r.journal.sector

theorem SameReplay.of_judged (same : ∀ j, Machine.judged st' j = Machine.judged st j) : SameReplay st st' where
  replay := by simp only [replay_eq, replayOf, same]
  judged _ _ := same _

theorem replay_eq_of_chosen (h : chosen st = some (j, epoch)) : replay st = some (replayOf st j epoch) := by rw [replay_chosen, h]; rfl

/-- Work on a sector that is not the chosen one, and is not usable after it. -/
theorem SameReplay.of_unusable (same : Machine.judged st' j.other = Machine.judged st j.other) (gone : usableAt st' j = none)
    (before : ∀ r ∈ Machine.replay st, r.journal.sector = j.other) : SameReplay st st' := by
  cases found : Machine.replay st with
  | none =>
    have none := replay_none.mp found
    have unusable : usableAt st' j.other = Option.none := by rw [usableAt, same]; exact none _
    refine ⟨?_, fun r mem => ?_⟩
    · rw [found]
      exact replay_none.mpr fun i => by cases i <;> cases j <;> [exact gone; exact unusable; exact unusable; exact gone]
    · rw [found] at mem
      cases mem
  | some r =>
    have sector := before r found
    obtain ⟨i, epoch, choice, rfl⟩ := replay_some found
    rw [replayOf_sector] at sector
    subst sector
    have stays : chosen st' = some (j.other, epoch) := chosen_stays choice (by rw [usableAt, usableAt, same])
      (.inr (by cases j <;> exact gone))
    refine ⟨?_, fun r mem => ?_⟩
    · have agree := replayOf_congr same epoch
      rw [replay_eq_of_chosen stays, agree, found]
    · rw [found] at mem
      cases mem
      exact same

end

end Sys2Proof.Machine
end

section
/-! The current journal sector after an entry, and after a position that was passed over (R114, R115, R125). -/

namespace Sys2Proof.Machine

/-! ### Positions beyond the last one written -/

section
variable (ps : List (Option (Option JEntry)))

theorem foldl_blank (n : Nat) (r : Rebuild) : (List.replicate n none).foldl rebuildStep r = r := by
  induction n with
  | zero => rfl
  | succ n ih => rw [List.replicate_succ]; exact ih

theorem rebuild_written (p : Option (Option JEntry)) (n : Nat) :
    rebuild (ps ++ p :: List.replicate n none) = rebuildStep (rebuild ps) p := by
  rw [rebuild_append, List.foldl_cons, foldl_blank]

theorem rebuild_blanks (n : Nat) : rebuild (ps ++ List.replicate n none) = rebuild ps := by
  rw [rebuild_append, foldl_blank]

theorem validEntries_written (e : JEntry) (n : Nat) :
    validEntries (ps ++ some (some e) :: List.replicate n none) = validEntries ps ++ [e] := by
  rw [validEntries_append]
  congr 1
  exact congrArg (e :: ·) (validEntries_blank n)

theorem validEntries_passed (n : Nat) : validEntries (ps ++ some none :: List.replicate n none) = validEntries ps := by
  rw [validEntries_append]
  exact (congrArg (validEntries ps ++ ·) (validEntries_blank n)).trans (List.append_nil _)

theorem validEntries_blanks (n : Nat) : validEntries (ps ++ List.replicate n none) = validEntries ps := by
  rw [validEntries_append, validEntries_blank, List.append_nil]

variable {ps}

theorem nextSeq_of_last {e : JEntry} {es : List JEntry} (entries : validEntries ps = es ++ [e]) : nextSeq ps = e.seq.toNat + 1 := by
  rw [nextSeq, entries, List.getLast?_append]
  rfl

theorem nextSeq_congr {qs : List (Option (Option JEntry))} (same : validEntries qs = validEntries ps) : nextSeq qs = nextSeq ps := by
  rw [nextSeq, nextSeq, same]

/-- An entry that takes the next sequence number is above the last valid one. -/
theorem lastSeq_lt_nextSeq {q : Word} (last : q ∈ lastSeq none ps) : q.toNat < nextSeq ps := by
  rw [lastSeq] at last
  rw [nextSeq]
  cases found : (validEntries ps).getLast? with
  | none =>
    rw [found] at last
    cases last
  | some e =>
    rw [found] at last
    cases last
    exact Nat.lt_succ_self _

end

/-! ### The current sector -/

/-- Replay would find a journal where it stands (R112). -/
structure Stands (st : Store) (j : Journal) : Prop where
  chosen : chosen st = some (j.sector, j.epoch)
  append : appendAfter 0 (judged st j.sector) = j.append
  seq : nextSeq (judged st j.sector) = j.seq

section
variable {st st' : Store} {j : Journal}

theorem stands_iff : Stands st j ↔ ∃ r ∈ replay st, r.journal = j := by
  constructor
  · intro h
    refine ⟨_, replay_eq_of_chosen h.chosen, ?_⟩
    have append := h.append
    have seq := h.seq
    obtain ⟨sector, epoch, append, seq⟩ := j
    rw [replayOf]
    simp_all only
  · rintro ⟨r, found, rfl⟩
    obtain ⟨i, epoch, choice, rfl⟩ := replay_some found
    exact ⟨choice, (replayOf_append st i epoch).symm, (replayOf_seq st i epoch).symm⟩

theorem Stands.replay (h : Stands st j) : replay st = some (replayOf st j.sector j.epoch) := replay_eq_of_chosen h.chosen

theorem Stands.usable (h : Stands st j) : usableEpoch (judged st j.sector) = some j.epoch := chosen_usable h.chosen

theorem Stands.same (h : Stands st j) (same : SameReplay st st') : Stands st' j := by
  obtain ⟨r, found, eq⟩ := stands_iff.mp h
  exact stands_iff.mpr ⟨r, same.replay.trans found, eq⟩

section
variable (h : Stands st j)
include h

theorem Stands.blank : blankFrom j.append (judged st j.sector) := h.append ▸ appendAfter_blankFrom _

/-- The positions written so far, and the blank ones after them. -/
theorem Stands.split : judged st j.sector = (judged st j.sector).take j.append ++ List.replicate (2048 - j.append) none := by
  have split := blankFrom_split _ h.blank
  rwa [judged_length] at split

theorem Stands.written_usable : usableEpoch ((judged st j.sector).take j.append) = some j.epoch := by
  rw [← h.usable]
  conv_rhs => rw [h.split]
  rw [usableEpoch_append_void (validEntries_blank _)]

theorem Stands.written_entries : validEntries ((judged st j.sector).take j.append) = validEntries (judged st j.sector) := by
  conv_rhs => rw [h.split]
  rw [validEntries_blanks]

theorem Stands.written_rebuild : rebuild ((judged st j.sector).take j.append) = rebuild (judged st j.sector) := by
  conv_rhs => rw [h.split]
  rw [rebuild_blanks]

theorem Stands.ended : (rebuild (judged st j.sector)).ended = true := rebuild_ended h.usable

theorem Stands.epoch_le : j.epoch ≤ 4294967295 := usableEpoch_lt h.usable

variable (inside : j.append < 2048)
include inside

/-- A sector in which one more position is written. -/
theorem Stands.written {p : Option (Option JEntry)} (full : p.isSome = true)
    (here : judged st' j.sector = (judged st j.sector).take j.append ++ p :: List.replicate (2048 - j.append - 1) none)
    (other : judged st' j.sector.other = judged st j.sector.other) :
    Machine.chosen st' = some (j.sector, j.epoch) ∧ appendAfter 0 (judged st' j.sector) = j.append + 1
      ∧ rebuild (judged st' j.sector) = rebuildStep (rebuild (judged st j.sector)) p := by
  refine ⟨chosen_stays h.chosen ?_ (.inl ?_), ?_, ?_⟩
  · rw [usableAt, usableAt, here, h.usable]
    exact usableEpoch_append h.written_usable
  · rw [usableAt, usableAt, other]
  · have length : ((judged st j.sector).take j.append).length = j.append := by
      rw [List.length_take, judged_length]
      omega
    rw [here, appendAfter_written _ _ _ full, length, Nat.zero_add]
  · rw [here, rebuild_written, h.written_rebuild]

variable (wf : st.wf = true)
include wf

/-- R115: a position whose program failed or was cut is passed over, and the directory stays. -/
theorem Stands.passed : Stands (st.spoilPosition j.sector j.append) { j with append := j.append + 1 }
    ∧ (rebuild (judged st j.sector)).Agrees (rebuild (judged (st.spoilPosition j.sector j.append) j.sector)) := by
  have here := judged_spoilPosition st wf inside h.blank
  have other := (Untouched.spoilPosition st (j := j.sector) inside).judged wf (st.spoilPosition_wf wf _ _)
  obtain ⟨choice, append, read⟩ := h.written inside rfl here other
  refine ⟨⟨choice, append, ?_⟩, ?_⟩
  · refine (nextSeq_congr ?_).trans h.seq
    rw [here, validEntries_passed, h.written_entries]
  · rw [read]
    exact Rebuild.agrees_skip _

/-- R114: an entry with the next sequence number is valid, and replay applies its record. -/
theorem Stands.entered {e : JEntry} (seq : e.seq.toNat = j.seq) :
    Stands (st.program (positionBase j.sector j.append) (entryBytes e)) { j with append := j.append + 1, seq := j.seq + 1 }
    ∧ rebuild (judged (st.program (positionBase j.sector j.append) (entryBytes e)) j.sector)
      = (rebuild (judged st j.sector)).read e.content := by
  have above : ∀ q ∈ lastSeq none ((judged st j.sector).take j.append), q.toNat < e.seq.toNat := fun q last => by
    rw [seq, ← h.seq, ← nextSeq_congr h.written_entries]
    exact lastSeq_lt_nextSeq last
  have here := judged_entry st wf inside h.blank e above
  have other := (Untouched.entry st (j := j.sector) inside e).judged wf (st.entry_wf _ _ e wf inside)
  obtain ⟨choice, append, read⟩ := h.written inside rfl here other
  refine ⟨⟨choice, append, ?_⟩, read⟩
  rw [here, nextSeq_of_last (validEntries_written _ e _), seq]

end

/-- The directory that replay finds after a record is the one that the record makes of the one before (R124). -/
theorem Rebuild.read_dir {r : Rebuild} (ended : r.ended = true) (c : JRecord) : (r.read c).dir = applied c r.dir := by
  unfold applied
  cases applies : applyRecord c r.dir with
  | some d => rw [Rebuild.read_applies ended applies]; rfl
  | none => rw [Rebuild.read_unapplied ended applies]; rfl

end

end Sys2Proof.Machine
end

section
/-! The directory of the running part beside the one in the journal: what a record and the end of sessions make of both (R5, R8, R12,
R124, R125, R128). -/

namespace Sys2Proof.Machine

/-! ### A volume and the volume it follows -/

/-- The durable fields of a volume outside its slots. -/
def Volume.frame (x : Volume) : Half × Nat × Nat × Nat × Mask × Mask × Bool × Nat :=
  (x.label, x.size, x.baseA, x.baseB, x.readers, x.writers, x.pinned, x.genCounter)

section
variable {x y : Volume} {q r : SlotRec}

theorem Volume.follows_iff : x.follows y ↔ (∀ sl, (x.slot sl).follows (y.slot sl)) ∧ x.frame = y.frame := by
  obtain ⟨label, size, baseA, baseB, readers, writers, pinned, genCounter, slotA, slotB, deleting⟩ := x
  obtain ⟨label', size', baseA', baseB', readers', writers', pinned', genCounter', slotA', slotB', deleting'⟩ := y
  simp only [Volume.follows, Volume.frame, Prod.mk.injEq, Volume.mk.injEq, and_true]
  constructor
  · rintro ⟨a, b, fields⟩
    exact ⟨fun sl => by cases sl; exacts [a, b], fields⟩
  · rintro ⟨slots, fields⟩
    exact ⟨slots .a, slots .b, fields⟩

theorem Volume.follows.slot (h : x.follows y) (sl : Slot) : (x.slot sl).follows (y.slot sl) := (Volume.follows_iff.mp h).1 sl

theorem Volume.follows.frame (h : x.follows y) : x.frame = y.frame := (Volume.follows_iff.mp h).2

theorem Volume.follows.genCounter (h : x.follows y) : x.genCounter = y.genCounter :=
  congrArg (fun f : Half × Nat × Nat × Nat × Mask × Mask × Bool × Nat => f.2.2.2.2.2.2.2) h.frame

/-- A slot in a state that the end of a session does not name is the same in the journal. -/
theorem SlotRec.follows.same (h : r.follows q) (st : SlotState) (settled : st ≠ .stale ∧ r.state = st ∨ st ≠ .staging ∧ q.state = st) :
    r = q := by
  rcases h with same | ⟨staging, rfl⟩
  · exact same
  · rcases settled with ⟨other, state⟩ | ⟨other, state⟩
    · exact absurd state.symm other
    · exact absurd (state.symm.trans staging) other

theorem SlotRec.follows.state_iff (h : r.follows q) {st : SlotState} (notStale : st ≠ .stale) (notStaging : st ≠ .staging) :
    r.state = st ↔ q.state = st :=
  ⟨fun state => h.same st (.inl ⟨notStale, state⟩) ▸ state, fun state => (h.same st (.inr ⟨notStaging, state⟩)).symm ▸ state⟩

theorem SlotRec.follows.rollback (h : r.follows q) : r.rollback.follows q.rollback := by
  rcases h with rfl | ⟨staging, rfl⟩
  · exact .inl rfl
  · exact .inr ⟨by simp only [SlotRec.rollback, staging], rfl⟩

theorem SlotRec.follows.endSession_eq (h : r.follows q) : q.endSession = r.endSession := by
  rcases h with rfl | ⟨staging, rfl⟩
  · rfl
  · simp only [SlotRec.endSession, staging, if_true, reduceCtorEq, if_false]

theorem Volume.rollback_slot (x : Volume) (sl : Slot) : x.rollback.slot sl = (x.slot sl).rollback := by cases sl <;> rfl

theorem Volume.frame_setSlot (x : Volume) (sl : Slot) (r : SlotRec) : (x.setSlot sl r).frame = x.frame := by cases sl <;> rfl

theorem Volume.follows_of_slots {sl : Slot} (here : (x.slot sl).follows (y.slot sl)) (other : (x.slot sl.other).follows (y.slot sl.other))
    (frame : x.frame = y.frame) : x.follows y :=
  Volume.follows_iff.mpr ⟨fun sm => by cases sl <;> cases sm <;> first | exact here | exact other, frame⟩

theorem Volume.slotIn_isSome (x : Volume) (st : SlotState) : (x.slotIn st).isSome = true ↔ ∃ sl, (x.slot sl).state = st := by
  constructor
  · intro some
    obtain ⟨sl, found⟩ := Option.isSome_iff_exists.mp some
    exact ⟨sl, Volume.slotIn_some found⟩
  · rintro ⟨sl, here⟩
    cases sl with
    | a =>
      change x.slotA.state = st at here
      rw [Volume.slotIn, if_pos here]
      rfl
    | b =>
      change x.slotB.state = st at here
      rw [Volume.slotIn, if_pos here]
      split <;> rfl

theorem Volume.slotIn_none (x : Volume) (st : SlotState) : x.slotIn st = none ↔ ∀ sl, (x.slot sl).state ≠ st := by
  rw [← Option.not_isSome_iff_eq_none, Volume.slotIn_isSome, not_exists]

/-- The commit of the same slot with the same image. -/
theorem Volume.follows.commit (h : x.follows y) (sl : Slot) (i : Image) : (x.commit sl i).follows (y.commit sl i) := by
  have frame : (x.commit sl i).frame = (y.commit sl i).frame := by
    have fields := h.frame
    simp only [Volume.frame, Prod.mk.injEq] at fields
    obtain ⟨label, size, baseA, baseB, readers, writers, pinned, -⟩ := fields
    simp only [Volume.commit]
    split <;> split <;> cases sl <;> simp only [Volume.frame, Volume.setSlot, Slot.other, label, size, baseA, baseB, readers, writers, pinned]
  refine Volume.follows_of_slots (sl := sl) (by rw [Volume.commit_slot, Volume.commit_slot]; exact .inl rfl) ?_ frame
  have active := (h.slot sl.other).state_iff (st := .active) (by decide) (by decide)
  by_cases former : (y.slot sl.other).state = .active
  · have same := (h.slot sl.other).same .active (.inr ⟨by decide, former⟩)
    simp only [Volume.commit, former, if_true, Volume.slot_genCounter, Volume.slot_setOther_other, same]
    exact .inl rfl
  · simp only [Volume.commit, former, mt active.mp former, if_false, Volume.slot_genCounter, Volume.slot_setSlot_other]
    exact h.slot sl.other

end

/-! ### The laws of volumes -/

/-- What every directory of a part keeps (R4, R5, R13, R14). -/
def dirLaw (d : Directory) : Prop := placedApart d ∧ ∀ v : Vol, ∀ x ∈ d[v], x.kept

section
variable {d e : Directory} {x y : Volume}

theorem Volume.kept_endSession (h : y.kept) : y.endSession.kept := by
  obtain ⟨sound, first, size, a, b, counter, lenA, lenB⟩ := h
  have len (r : SlotRec) : r.endSession.len ≤ r.len := by
    unfold SlotRec.endSession
    split
    · exact Nat.zero_le _
    · exact Nat.le_refl _
  refine ⟨Volume.sound_endSession sound, fun none => ?_, size, a, b, counter, (len _).trans lenA, (len _).trans lenB⟩
  rw [Volume.endSession_slotIn_active] at none
  have empty := first none
  have notStaging : y.slotB.state ≠ .staging := by rw [empty]; decide
  change y.slotB.endSession.state = .empty
  rw [SlotRec.endSession_of_ne notStaging, empty]

/-- A volume that follows one of the part's own keeps its laws. -/
theorem Volume.kept_of_follows (h : x.follows y) (kept : y.kept) : x.kept := by
  have shape : x = { y with slotA := x.slotA, slotB := x.slotB, deleting := x.deleting } := by
    obtain ⟨-, -, fields⟩ := h
    rw [← fields]
  have flag (z : Volume) (kept : z.kept) (b : Bool) : ({ z with deleting := b } : Volume).kept := kept
  have sound := kept.1
  rcases h.1 with a | ⟨stagingA, a⟩ <;> rcases h.2.1 with b | ⟨stagingB, b⟩
  · rw [shape, a, b]
    exact kept
  · have notA : y.slotA.state ≠ .staging := fun stagingA => by
      rcases sound.2.2.1 (stagingA.trans stagingB.symm) with no | no <;> rw [stagingA] at no <;> cases no
    have ended : y.endSession = { y with slotB := { state := .stale, image := none } } := by
      rw [Volume.endSession, SlotRec.endSession_of_ne notA, SlotRec.endSession, if_pos stagingB]
    rw [shape, a, b]
    have := flag _ (Volume.kept_endSession kept) x.deleting
    rwa [ended] at this
  · have notB : y.slotB.state ≠ .staging := fun stagingB => by
      rcases sound.2.2.1 (stagingA.trans stagingB.symm) with no | no <;> rw [stagingA] at no <;> cases no
    have ended : y.endSession = { y with slotA := { state := .stale, image := none } } := by
      rw [Volume.endSession, SlotRec.endSession_of_ne notB, SlotRec.endSession, if_pos stagingA]
    rw [shape, a, b]
    have := flag _ (Volume.kept_endSession kept) x.deleting
    rwa [ended] at this
  · rcases sound.2.2.1 (stagingA.trans stagingB.symm) with no | no <;> rw [stagingA] at no <;> cases no

/-- The volume that another one follows. -/
theorem followsJournal.before (h : followsJournal d e) {v : Vol} (used : d[v] = some x) : ∃ y, e[v] = some y ∧ x.follows y := by
  obtain ⟨some, follows⟩ := h v
  rw [used] at some
  obtain ⟨y, used'⟩ := Option.isSome_iff_exists.mp some.symm
  exact ⟨y, used', follows x used y used'⟩

theorem followsJournal.after (h : followsJournal d e) {v : Vol} (used : e[v] = some y) : ∃ x, d[v] = some x ∧ x.follows y := by
  obtain ⟨some, follows⟩ := h v
  rw [used] at some
  obtain ⟨x, used'⟩ := Option.isSome_iff_exists.mp some
  exact ⟨x, used', follows x used' y used⟩

theorem Volume.clearOf_frame {y y' : Volume} (same : y.frame = y'.frame) (size a b : Nat) : y.clearOf size a b ↔ y'.clearOf size a b := by
  simp only [Volume.frame, Prod.mk.injEq] at same
  obtain ⟨-, size', baseA, baseB, -⟩ := same
  simp only [Volume.clearOf, size', baseA, baseB]

theorem Volume.clearOf_symm : x.clearOf y.size y.baseA y.baseB ↔ y.clearOf x.size x.baseA x.baseB := by
  simp only [Volume.clearOf]
  omega

/-- The laws of the volumes hold of every directory that follows one in which they hold. -/
theorem dirLaw_of_follows (h : followsJournal d e) (law : dirLaw e) : dirLaw d := by
  refine ⟨fun v w ne x used y used' => ?_, fun v x used => ?_⟩
  · obtain ⟨x', was, followsX⟩ := h.before used
    obtain ⟨y', was', followsY⟩ := h.before used'
    have apart := law.1 v w ne x' was y' was'
    rw [← Volume.clearOf_frame followsY.frame, Volume.clearOf_symm, ← Volume.clearOf_frame followsX.frame, Volume.clearOf_symm] at apart
    exact apart
  · obtain ⟨y, was, follows⟩ := h.before used
    exact Volume.kept_of_follows follows (law.2 v y was)

/-- The directory that replay leaves follows every one that follows what it read (R125). -/
theorem endReplay_follows (h : followsJournal d e) : followsJournal (endReplay e) d := fun v => by
  rw [endReplay_get]
  refine ⟨by rw [Option.isSome_map, (h v).1], fun z mem x used => ?_⟩
  obtain ⟨y, was, rfl⟩ := Option.map_eq_some_iff.mp mem
  have follows := (h v).2 x used y was
  refine Volume.follows_iff.mpr ⟨fun sl => ?_, follows.frame.symm⟩
  rw [Volume.endSession_slot, (follows.slot sl).endSession_eq]
  exact SlotRec.follows_endSession _

theorem endReplay_follows_self (e : Directory) : followsJournal (endReplay e) e := endReplay_follows (.refl e)

/-! ### One record in the running part and in the journal -/

/-- What a record has to mean for its volume, for the running part and the journal to agree on it (R13, R14, R114). -/
theorem recordMeans_of_follows {v : Vol} {r : JRecord} (h : followsJournal d e) (means : recordMeans e v r)
    (commit : ∀ b c gen len crc, r = .commit b c gen len crc → d[v] = e[v]) : recordMeans d v r := by
  cases r with
  | create b label size a b' rd wr =>
    obtain ⟨topA, topB, apart⟩ := means
    refine ⟨topA, topB, fun w y used => ?_⟩
    obtain ⟨y', was, follows⟩ := h.before used
    exact (Volume.clearOf_frame follows.frame _ _ _).mpr (apart w y' was)
  | stage b c =>
    intro y used
    obtain ⟨y', was, follows⟩ := h.before used
    have target : y.target = y'.target := by
      have active (sl : Slot) := (follows.slot sl).state_iff (st := .active) (by decide) (by decide)
      have a := active .a
      have b := active .b
      simp only [Volume.slot] at a b
      simp only [Volume.target, Volume.slotIn, a, b]
    rw [target]
    exact means y' was
  | commit b c gen len crc =>
    intro y used
    rw [commit b c gen len crc rfl] at used
    exact means y used
  | _ => trivial

variable {r : JRecord} {v : Vol} {z : Option Volume}

/-- One entry of a directory beside that of the other. -/
def Beside (w w' : Option Volume) : Prop := w.isSome = w'.isSome ∧ ∀ x ∈ w, ∀ y ∈ w', x.follows y

theorem Beside.free : Beside none none := ⟨rfl, fun _ mem => nomatch mem⟩

theorem Beside.some (h : x.follows y) : Beside (some x) (some y) := ⟨rfl, fun _ mem _ mem' => by cases mem; cases mem'; exact h⟩

theorem Beside.of_none {w : Option Volume} (h : Beside none w ∨ Beside w none) : w = none := by
  cases w with
  | none => rfl
  | some => rcases h with ⟨no, -⟩ | ⟨no, -⟩ <;> cases no

theorem Beside.of_some {w : Option Volume} (h : Beside (Option.some x) w) : ∃ y, w = Option.some y ∧ x.follows y := by
  obtain ⟨some, follows⟩ := h
  obtain ⟨y, rfl⟩ := Option.isSome_iff_exists.mp some.symm
  exact ⟨y, rfl, follows x rfl y rfl⟩

theorem Beside.to_some {w : Option Volume} (h : Beside w (Option.some y)) : ∃ x, w = Option.some x ∧ x.follows y := by
  obtain ⟨some, follows⟩ := h
  obtain ⟨x, rfl⟩ := Option.isSome_iff_exists.mp some
  exact ⟨x, rfl, follows x rfl y rfl⟩

theorem Volume.follows.stage (h : x.follows y) (sl : Slot) : (x.stage sl).follows (y.stage sl) := by
  refine Volume.follows_of_slots (sl := sl) ?_ ?_ ?_
  · simp only [Volume.stage, Volume.slot_setSlot_same]
    exact .inl rfl
  · simp only [Volume.stage, Volume.slot_setSlot_other]
    exact h.slot sl.other
  · rw [Volume.stage, Volume.stage, Volume.frame_setSlot, Volume.frame_setSlot]
    exact h.frame

theorem Volume.follows.rollback (h : x.follows y) : x.rollback.follows y.rollback :=
  ⟨h.1.rollback, h.2.1.rollback, congrArg (fun z : Volume => { z with slotA := y.slotA.rollback, slotB := y.slotB.rollback }) h.2.2⟩

theorem Volume.follows.slotIn (h : x.follows y) {st : SlotState} (notStale : st ≠ .stale) (notStaging : st ≠ .staging) :
    (x.slotIn st).isSome = (y.slotIn st).isSome := by
  rw [Bool.eq_iff_iff, Volume.slotIn_isSome, Volume.slotIn_isSome]
  exact exists_congr fun sl => (h.slot sl).state_iff notStale notStaging

/-- Beside the target of R13 the journal shows no STAGING slot that the running part does not. -/
theorem Volume.kept.besideTarget (kept : x.kept) (h : x.follows y) (noStaging : (x.slot x.target.other).state ≠ .staging) :
    (y.slot x.target.other).state ≠ .staging := fun staging => by
  rcases h.slot x.target.other with same | ⟨-, stale⟩
  · exact noStaging (same ▸ staging)
  · cases active : x.slotIn .active with
    | some sl =>
      have target : x.target = sl.other := by simp only [Volume.target, active]
      have here : x.target.other = sl := by rw [target]; cases sl <;> rfl
      rw [here] at stale
      have state := Volume.slotIn_some active
      rw [stale] at state
      cases state
    | none =>
      have target : x.target = .a := by simp only [Volume.target, active]
      have empty := kept.2.1 active
      rw [target] at stale
      change x.slotB = _ at stale
      rw [stale] at empty
      cases empty

/-- What a record makes of a volume of the running part, it makes of that volume in the journal (R124). -/
theorem Effect.mirror {w w' : Option Volume} (h : Effect r w z) (beside : Beside w w') (kept : ∀ x ∈ w, x.kept)
    (target : ∀ b c, r = .stage b c → ∀ x ∈ w, slotOfCode c = some x.target) : ∃ z', Effect r w' z' ∧ Beside z z' := by
  cases h with
  | create b label size baseA baseB rd wr fits =>
    rw [Beside.of_none (.inl beside)]
    exact ⟨_, .create b label size baseA baseB rd wr fits, .some (Volume.follows_refl _)⟩
  | delete b x =>
    obtain ⟨y, rfl, -⟩ := beside.of_some
    exact ⟨_, .delete b y, .free⟩
  | access b rd wr x =>
    obtain ⟨y, rfl, follows⟩ := beside.of_some
    exact ⟨_, .access b rd wr y, .some ⟨follows.1, follows.2.1,
      congrArg (fun v : Volume => { v with readers := rd.setWidth 4, writers := wr.setWidth 4 }) follows.2.2⟩⟩
  | pin b x =>
    obtain ⟨y, rfl, follows⟩ := beside.of_some
    exact ⟨_, .pin b y, .some ⟨follows.1, follows.2.1, congrArg (fun v : Volume => { v with pinned := true }) follows.2.2⟩⟩
  | unpin b x =>
    obtain ⟨y, rfl, follows⟩ := beside.of_some
    exact ⟨_, .unpin b y, .some ⟨follows.1, follows.2.1, congrArg (fun v : Volume => { v with pinned := false }) follows.2.2⟩⟩
  | stage b c sl x slot notActive noStaging =>
    obtain ⟨y, rfl, follows⟩ := beside.of_some
    obtain rfl : sl = x.target := Option.some.inj (slot.symm.trans (target b c rfl x rfl))
    exact ⟨_, .stage b c _ y slot (mt ((follows.slot _).state_iff (by decide) (by decide)).mpr notActive)
      ((kept x rfl).besideTarget follows noStaging), .some (follows.stage _)⟩
  | commit b c sl gen len crc x slot staging next =>
    obtain ⟨y, rfl, follows⟩ := beside.of_some
    have same := (follows.slot sl).same .staging (.inl ⟨by decide, staging⟩)
    exact ⟨_, .commit b c sl gen len crc y slot (same ▸ staging) (follows.genCounter ▸ next), .some (follows.commit sl _)⟩
  | rollback b x previous =>
    obtain ⟨y, rfl, follows⟩ := beside.of_some
    exact ⟨_, .rollback b y ((follows.slotIn (st := .previous) (by decide) (by decide)) ▸ previous), .some follows.rollback⟩

/-- What a record makes of a volume in the journal, it makes of that volume in the running part (R114). -/
theorem Effect.reflect {w w' z' : Option Volume} (h : Effect r w' z') (beside : Beside w w')
    (staged : ∀ b c gen len crc, r = .commit b c gen len crc → ∀ x ∈ w, ∀ sl ∈ slotOfCode c, (x.slot sl).state = .staging) :
    ∃ z, Effect r w z := by
  cases h with
  | create b label size baseA baseB rd wr fits =>
    rw [Beside.of_none (.inr beside)]
    exact ⟨_, .create b label size baseA baseB rd wr fits⟩
  | delete b y =>
    obtain ⟨x, rfl, -⟩ := beside.to_some
    exact ⟨_, .delete b x⟩
  | access b rd wr y =>
    obtain ⟨x, rfl, -⟩ := beside.to_some
    exact ⟨_, .access b rd wr x⟩
  | pin b y =>
    obtain ⟨x, rfl, -⟩ := beside.to_some
    exact ⟨_, .pin b x⟩
  | unpin b y =>
    obtain ⟨x, rfl, -⟩ := beside.to_some
    exact ⟨_, .unpin b x⟩
  | stage b c sl y slot notActive noStaging =>
    obtain ⟨x, rfl, follows⟩ := beside.to_some
    refine ⟨_, .stage b c sl x slot (mt ((follows.slot _).state_iff (by decide) (by decide)).mp notActive) fun staging => noStaging ?_⟩
    have same := (follows.slot sl.other).same .staging (.inl ⟨by decide, staging⟩)
    exact same ▸ staging
  | commit b c sl gen len crc y slot staging next =>
    obtain ⟨x, rfl, follows⟩ := beside.to_some
    exact ⟨_, .commit b c sl gen len crc x slot (staged b c gen len crc rfl x rfl sl slot) (follows.genCounter ▸ next)⟩
  | rollback b y previous =>
    obtain ⟨x, rfl, follows⟩ := beside.to_some
    exact ⟨_, .rollback b x ((follows.slotIn (st := .previous) (by decide) (by decide)) ▸ previous)⟩

theorem applied_of_effect {w : Option Volume} (named : volIndex (recordVol r) = some v) (h : Effect r d[v] w) : applied r d = d.set v w := by
  rw [applied, applyRecord_of_effect named h]
  rfl

theorem applied_of_none (none : ∀ v z, volIndex (recordVol r) = some v → ¬Effect r d[v] z) : applied r d = d := by
  rcases applied_cases r d with same | ⟨v, y, named, effect, -⟩
  · exact same
  · exact absurd effect (none v y named)

/-- The running part and the journal make the same of a record (R114, R124, R128). -/
theorem applied_follows (h : followsJournal d e) (kept : ∀ v : Vol, ∀ x ∈ d[v], x.kept)
    (means : ∀ v, volIndex (recordVol r) = some v → recordMeans d v r) : followsJournal (applied r d) (applied r e) := by
  by_cases some : ∃ v z, volIndex (recordVol r) = some v ∧ Effect r d[v] z
  · obtain ⟨v, z, named, effect⟩ := some
    obtain ⟨z', effect', beside⟩ := effect.mirror (h v) (kept v) fun b c stage x used => by
      have target := means v named
      rw [stage] at target
      exact target x used
    rw [applied_of_effect named effect, applied_of_effect named effect']
    intro w
    rw [directory_set_get, directory_set_get]
    split
    · exact beside
    · exact h w
  · rw [applied_of_none fun v z named effect => some ⟨v, z, named, effect⟩, applied_of_none]
    · exact h
    · intro v z' named effect'
      obtain ⟨z, effect⟩ := effect'.reflect (h v) fun b c gen len crc commit x used sl slot => by
        have staged := means v named
        rw [commit] at staged
        exact staged x used sl slot
      exact some ⟨v, z, named, effect⟩

/-! ### The laws of volumes after a record -/

theorem Effect.clearOf {w : Option Volume} (h : Effect r w (some x)) (before : ∀ x₀ ∈ w, y.clearOf x₀.size x₀.baseA x₀.baseB)
    (created : ∀ b label size a b' rd wr, r = .create b label size a b' rd wr → y.clearOf size.toNat a.toNat b'.toNat) :
    y.clearOf x.size x.baseA x.baseB := by
  cases w with
  | none =>
    cases h with
    | create b label size baseA baseB rd wr => exact created _ _ _ _ _ _ _ rfl
  | some x₀ =>
    obtain ⟨-, size, baseA, baseB, -⟩ := h.keepsPlace
    rw [size, baseA, baseB]
    exact before x₀ rfl

theorem Volume.stage_len (x : Volume) (sl sm : Slot) : ((x.stage sl).slot sm).len ≤ (x.slot sm).len := by
  cases sl <;> cases sm <;> first | exact Nat.le_refl _ | exact Nat.zero_le _

theorem Volume.commit_len (x : Volume) (sl sm : Slot) (i : Image) :
    ((x.commit sl i).slot sm).len = i.len ∨ ((x.commit sl i).slot sm).len = (x.slot sm).len := by
  simp only [Volume.commit]
  split <;> cases sl <;> cases sm <;> first | exact .inl rfl | exact .inr rfl

/-- A volume that a record makes or changes keeps the laws of a volume, if the record means what it means in the running part (R10,
R13, R14). -/
theorem Effect.kept {w : Option Volume} (h : Effect r w (some y)) (before : ∀ x ∈ w, x.kept)
    (created : ∀ b label size a b' rd wr, r = .create b label size a b' rd wr → a.toNat + size.toNat ≤ 256 ∧ b'.toNat + size.toNat ≤ 512)
    (target : ∀ b c, r = .stage b c → ∀ x ∈ w, slotOfCode c = some x.target) : y.kept := by
  have sound := h.sound fun x mem => (before x mem).1
  cases h with
  | create b label size baseA baseB rd wr fits =>
    obtain ⟨topA, topB⟩ := created _ _ _ _ _ _ _ rfl
    simp only [placed, Bool.and_eq_true, decide_eq_true_eq] at fits
    obtain ⟨⟨⟨⟨⟨low, high⟩, lowA⟩, -⟩, lowB⟩, -⟩ := fits
    exact ⟨sound, fun _ => rfl, ⟨low, high⟩, ⟨lowA, topA⟩, ⟨lowB, topB⟩, Nat.zero_le _, Nat.zero_le _, Nat.zero_le _⟩
  | access b rd wr x => exact before x rfl
  | pin b x => exact before x rfl
  | unpin b x => exact before x rfl
  | stage b c sl x slot notActive noStaging =>
    obtain ⟨-, first, size, baseA, baseB, counter, lenA, lenB⟩ := before x rfl
    obtain rfl : sl = x.target := Option.some.inj (slot.symm.trans (target b c rfl x rfl))
    obtain ⟨-, sameSize, sameA, sameB, -⟩ := (Effect.stage b c _ x slot notActive noStaging).keepsPlace
    refine ⟨sound, fun noActive => ?_, by rwa [sameSize], by rwa [sameA, sameSize], by rwa [sameB, sameSize], ?_,
      (x.stage_len _ .a).trans lenA, (x.stage_len _ .b).trans lenB⟩
    · have noActive' : x.slotIn .active = none := (Volume.slotIn_none x .active).mpr fun sm active => by
        rcases eq_or_ne sm x.target with rfl | ne
        · exact notActive active
        · have other : sm = x.target.other := by cases sm <;> cases target : x.target <;> first | rfl | exact absurd target.symm ne
          refine (Volume.slotIn_none _ .active).mp noActive sm ?_
          rw [other] at active ⊢
          simpa only [Volume.stage, Volume.slot_setSlot_other] using active
      have target : x.target = .a := by simp only [Volume.target, noActive']
      rw [target]
      exact first noActive'
    · cases x.target <;> exact counter
  | commit b c sl gen len crc x slot staging next =>
    obtain ⟨-, first, size, baseA, baseB, counter, lenA, lenB⟩ := before x rfl
    obtain ⟨-, sameSize, sameA, sameB, -⟩ := (Effect.commit b c sl gen len crc x slot staging next).keepsPlace
    have len (sm : Slot) : ((x.commit sl { gen := gen.toNat, len := len.toNat, crc := crc }).slot sm).len ≤ Config.wordMax := by
      rcases x.commit_len sl sm { gen := gen.toNat, len := len.toNat, crc := crc } with new | old
      · rw [new]
        exact Nat.le_of_lt_succ len.isLt
      · rw [old]
        cases sm with
        | a => exact lenA
        | b => exact lenB
    refine ⟨sound, fun noActive => ?_, by rwa [sameSize], by rwa [sameA, sameSize], by rwa [sameB, sameSize], Nat.le_of_lt_succ gen.isLt, len .a, len .b⟩
    exact absurd (by rw [Volume.commit_slot]) ((Volume.slotIn_none _ .active).mp noActive sl)
  | rollback b x previous =>
    obtain ⟨-, first, size, baseA, baseB, counter, lenA, lenB⟩ := before x rfl
    refine ⟨sound, fun noActive => ?_, size, baseA, baseB, counter, ?_, ?_⟩
    · obtain ⟨sm, state⟩ := (Volume.slotIn_isSome x .previous).mp previous
      refine absurd ?_ ((Volume.slotIn_none _ .active).mp noActive sm)
      rw [Volume.rollback_slot, SlotRec.rollback_of_previous state]
    · exact (SlotRec.rollback_len _).le.trans lenA
    · exact (SlotRec.rollback_len _).le.trans lenB

/-- A record that means in the journal what it means in the running part keeps the laws of the volumes (R4, R5, R13, R14). -/
theorem dirLaw_applied (law : dirLaw d) (means : ∀ v, volIndex (recordVol r) = some v → recordMeans d v r) : dirLaw (applied r d) := by
  obtain ⟨apart, kept⟩ := law
  have created {v : Vol} (named : volIndex (recordVol r) = some v) {b label size a b' rd wr} (create : r = .create b label size a b' rd wr) :
      a.toNat + size.toNat ≤ 256 ∧ b'.toNat + size.toNat ≤ 512 ∧ ∀ w : Vol, ∀ y ∈ d[w], y.clearOf size.toNat a.toNat b'.toNat := by
    have := means v named
    rwa [create] at this
  refine ⟨fun v w ne x used y used' => ?_, fun v x used => ?_⟩
  · rcases applied_get r d v with sameV | ⟨named, effect⟩ <;> rcases applied_get r d w with sameW | ⟨named', effect'⟩
    · rw [sameV] at used
      rw [sameW] at used'
      exact apart v w ne x used y used'
    · rw [sameV] at used
      rw [used'] at effect'
      exact Volume.clearOf_symm.mp (effect'.clearOf (fun y₀ was => apart w v ne.symm y₀ was x used)
        fun _ _ _ _ _ _ _ create => (created named' create).2.2 v x used)
    · rw [sameW] at used'
      rw [used] at effect
      exact effect.clearOf (fun x₀ was => apart v w ne x₀ was y used') fun _ _ _ _ _ _ _ create => (created named create).2.2 w y used'
    · exact absurd (Option.some.inj (named.symm.trans named')) ne
  · rcases applied_get r d v with same | ⟨named, effect⟩
    · rw [same] at used
      exact kept v x used
    · rw [used] at effect
      refine effect.kept (kept v) (fun _ _ _ _ _ _ _ create => ?_) fun b c stage x₀ was => ?_
      · obtain ⟨topA, topB, -⟩ := created named create
        exact ⟨topA, topB⟩
      · have target := means v named
        rw [stage] at target
        exact target x₀ was

end

end Sys2Proof.Machine
end

section
/-! What a part keeps of the journal beside the work under way (R112, R122 to R125, R128): the volumes, what replay finds, and the
current sector. -/

namespace Sys2Proof.Machine

/-- Whatever replay finds are volumes the part has made, and a sequence counter no higher than the positions written. -/
def foundLaw (st : Store) : Prop := ∀ r ∈ replay st, r.journal.seq ≤ r.journal.append + 1 ∧ dirLaw r.dir

/-- The law of the journal without the work under way and the queued operations. -/
structure State.Founded (s : State) : Prop where
  dirs : dirLaw s.vols
  found : foundLaw s.store
  unformatted : s.mode = .unformatted → replay s.store = none
  serving : s.mode = .normal ∨ s.mode = .degraded → s.journal.isSome = true
  current : ∀ j ∈ s.journal, Stands s.store j ∧ followsJournal s.vols (rebuild (judged s.store j.sector)).dir

section
variable {s t : State} {st st' : Store} {j : Journal}

theorem State.journalLaw_iff : s.journalLaw ↔ s.Founded ∧ (∀ e ∈ s.engine, s.placeLaw e) ∧ s.bindLaw := by
  constructor
  · rintro ⟨dirs, found, unformatted, serving, current, place, bind⟩
    refine ⟨⟨dirs, found, unformatted, serving, fun j mem => ?_⟩, place, bind⟩
    obtain ⟨r, mem', same, follows⟩ := current j mem
    exact ⟨stands_iff.mpr ⟨r, mem', same⟩, follows⟩
  · rintro ⟨⟨dirs, found, unformatted, serving, current⟩, place, bind⟩
    refine ⟨dirs, found, unformatted, serving, fun j mem => ?_, place, bind⟩
    obtain ⟨stands, follows⟩ := current j mem
    obtain ⟨r, mem', same⟩ := stands_iff.mp stands
    exact ⟨r, mem', same, follows⟩

theorem SameReplay.refl (st : Store) : SameReplay st st := .of_judged fun _ => rfl

theorem SameReplay.of_untouched (wf : st.wf = true) (wf' : st'.wf = true) (h : ∀ j, Untouched st st' j) : SameReplay st st' :=
  .of_judged fun j => (h j).judged wf wf'

theorem foundLaw.same (h : foundLaw st) (same : SameReplay st st') : foundLaw st' := fun r mem => h r (same.replay ▸ mem)

/-- What replay finds in a current sector follows the running part (R125, R128). -/
theorem foundLaw_of_stands {d : Directory} (stands : Stands st j) (seq : j.seq ≤ j.append + 1) (dirs : dirLaw d)
    (follows : followsJournal d (rebuild (judged st j.sector)).dir) : foundLaw st := fun r mem => by
  obtain ⟨r', mem', rfl⟩ := stands_iff.mp stands
  obtain rfl : r' = r := Option.some.inj (mem'.symm.trans mem)
  refine ⟨seq, ?_⟩
  have dir := (congrArg Replayed.dir (Option.some.inj (mem.symm.trans stands.replay))).trans (replayOf_dir st _ _)
  rw [dir]
  exact dirLaw_of_follows (endReplay_follows follows) dirs

theorem State.Founded.seq_le (law : s.Founded) (journal : s.journal = some j) : j.seq ≤ j.append + 1 := by
  obtain ⟨r, mem, rfl⟩ := stands_iff.mp (law.current j journal).1
  exact (law.found r mem).1

/-- Work that replay does not see, while sessions end and flags change (R12, R128). -/
theorem State.Founded.quiet (law : s.Founded) (same : SameReplay s.store t.store) (journal : t.journal = s.journal)
    (follows : followsJournal t.vols s.vols) (mode : t.mode = s.mode ∨ t.mode = .degraded ∧ s.journal.isSome = true) : t.Founded where
  dirs := dirLaw_of_follows follows law.dirs
  found := law.found.same same
  unformatted mode' := by
    rcases mode with mode | ⟨mode, -⟩
    · exact same.replay.trans (law.unformatted (mode ▸ mode'))
    · rw [mode] at mode'
      cases mode'
  serving mode' := by
    rw [journal]
    rcases mode with mode | ⟨-, there⟩
    · exact law.serving (mode ▸ mode')
    · exact there
  current j mem := by
    rw [journal] at mem
    obtain ⟨stands, follows'⟩ := law.current j mem
    refine ⟨stands.same same, ?_⟩
    have agree := same.judged _ stands.replay
    rw [replayOf_sector] at agree
    rw [agree]
    exact follows.trans follows'

/-- A part that holds no volume and no current sector (R7, R112, R121). -/
theorem State.Founded.of_empty (found : foundLaw t.store) (vols : t.vols = Vector.replicate 32 none) (journal : t.journal = none)
    (mode : t.mode = .starting ∨ t.mode = .unformatted ∧ replay t.store = none) : t.Founded where
  dirs := by
    rw [vols]
    exact ⟨fun v w ne x used => by simp at used, fun v x used => by simp at used⟩
  found := found
  unformatted mode' := by
    rcases mode with mode | ⟨-, none⟩
    · rw [mode] at mode'
      cases mode'
    · exact none
  serving mode' := by
    rcases mode with mode | ⟨mode, -⟩ <;> rw [mode] at mode' <;> rcases mode' with no | no <;> cases no
  current j mem := by
    rw [journal] at mem
    cases mem

/-- A part whose current sector has changed. -/
theorem State.Founded.of_stands (dirs : dirLaw t.vols) (journal : t.journal = some j) (stands : Stands t.store j) (seq : j.seq ≤ j.append + 1)
    (follows : followsJournal t.vols (rebuild (judged t.store j.sector)).dir) (mode : t.mode ≠ .unformatted) : t.Founded where
  dirs := dirs
  found := foundLaw_of_stands stands seq dirs follows
  unformatted mode' := absurd mode' mode
  serving _ := by rw [journal]; rfl
  current j' mem := by
    rw [journal] at mem
    cases mem
    exact ⟨stands, follows⟩

/-! ### The sector of a COMPACT or a FORMAT -/

theorem JSector.other_other (i : JSector) : i.other.other = i := by cases i <;> rfl

/-- The sector is not one that replay chooses. -/
def spare (st : Store) (i : JSector) : Prop := ∀ r ∈ replay st, r.journal.sector = i.other

theorem spare_of_none (none : replay st = none) (i : JSector) : spare st i := fun r mem => by
  rw [none] at mem
  cases mem

theorem Stands.spare (h : Stands st j) : spare st j.sector.other := fun r mem => by
  obtain rfl := Option.some.inj (mem.symm.trans h.replay)
  rw [replayOf_sector, JSector.other_other]

theorem validEntries_passedOver (n : Nat) : validEntries (some none :: List.replicate n none) = [] := validEntries_passed [] n

/-- The positions written so far are no more usable than the sector. -/
theorem usableEpoch_written {ps : List (Option (Option JEntry))} {k : Nat} (blank : blankFrom k ps) :
    usableEpoch (ps.take k) = usableEpoch ps := by
  conv_rhs => rw [blankFrom_split _ blank]
  rw [usableEpoch_append_void (validEntries_blank _)]

section
variable (wf : st.wf = true) {i : JSector} (spares : spare st i)
include wf spares

theorem SameReplay.eraseSector : SameReplay st (st.eraseSector (jsectorNumber i)) :=
  .of_unusable ((Untouched.eraseSector st (jsectorNumber_other i)).judged wf (st.eraseSector_wf _ wf))
    (by rw [usableAt, judged_eraseSector st wf]; exact usableEpoch_void (validEntries_blank _)) spares

theorem SameReplay.spoilSector : SameReplay st (st.spoilSector (jsectorNumber i)) :=
  .of_unusable ((Untouched.spoilSector st (jsectorNumber_other i)).judged wf (st.spoilSector_wf wf _))
    (by rw [usableAt, judged_spoilSector st wf]; exact usableEpoch_void (validEntries_invalid _)) spares

variable {k : Nat} (inside : k < 2048) (blank : blankFrom k (Machine.judged st i)) (unusable : usableEpoch (Machine.judged st i) = none)
include inside blank unusable

theorem SameReplay.spoilPosition : SameReplay st (st.spoilPosition i k) := by
  refine .of_unusable ((Untouched.spoilPosition st inside).judged wf (st.spoilPosition_wf wf _ _)) ?_ spares
  have written := usableEpoch_written blank
  rw [unusable] at written
  have gone := usableEpoch_append_void (ps := (Machine.judged st i).take k) (validEntries_passedOver (2048 - k - 1))
  rw [written] at gone
  have here := judged_spoilPosition st wf (j := i) inside blank
  rw [usableAt, here]
  exact gone

end

end

end Sys2Proof.Machine
end

section
/-! A sector under a COMPACT or a FORMAT as it will read once every entry has completed, and what changes it on the way (R115, R118,
R122, R123, R133). -/

namespace Sys2Proof.Machine

/-! ### One more entry -/

section
variable {ps qs : List (Option (Option JEntry))} {e : JEntry}

theorem snapshotComplete_concat {n : Nat} {es : List JEntry} (other : isSnapEnd e.content = false)
    (complete : snapshotComplete n (es ++ [e]) = true) : snapshotComplete n es = true := by
  induction es generalizing n with
  | nil =>
    rw [List.nil_append, snapshotComplete] at complete
    cases content : e.content <;> simp only [content, snapshotComplete, Bool.false_eq_true] at complete
    rw [content] at other
    cases other
  | cons f rest ih =>
    rw [List.cons_append, snapshotComplete] at complete
    rw [snapshotComplete]
    cases content : f.content <;> simp only [content, Bool.false_eq_true] at complete ⊢
    case snapVol => exact ih complete
    case snapSlot => exact ih complete
    case snapEnd => exact complete

/-- An entry other than a SNAP_END makes no sector usable (R122). -/
theorem usableEpoch_concat (unusable : usableEpoch ps = none) (other : isSnapEnd e.content = false) :
    usableEpoch (ps ++ [some (some e)]) = none := by
  by_contra some
  obtain ⟨epoch, usable⟩ := Option.ne_none_iff_exists'.mp some
  obtain ⟨k, h, rest, w, first, near, entries, header, complete, rfl⟩ := (usableEpoch_some _).mp usable
  rw [validEntries_append, show validEntries [Option.some (Option.some e)] = [e] from rfl] at entries
  cases before : validEntries ps with
  | nil =>
    rw [before, List.nil_append, List.cons.injEq] at entries
    obtain ⟨-, rfl⟩ := entries
    cases complete
  | cons f es =>
    rw [before, List.cons_append, List.cons.injEq] at entries
    obtain ⟨rfl, rfl⟩ := entries
    have first' : firstValid 0 ps = Option.some k := by
      rw [firstValid_append] at first
      cases early : firstValid 0 ps with
      | none => rw [(firstValid_none ps 0).mp early] at before; cases before
      | some m => rw [early] at first; exact first
    have usable' := (usableEpoch_some _).mpr ⟨k, f, es, w, first', near, before, header, snapshotComplete_concat other complete, rfl⟩
    rw [unusable] at usable'
    cases usable'

theorem classify_parts (valid : classify none (ps ++ qs) = ps ++ qs) :
    classify none ps = ps ∧ classify (lastSeq none ps) qs = qs := by
  rw [classify_append] at valid
  obtain ⟨before, after⟩ := List.append_inj valid (classify_length _ _)
  rw [before] at after
  exact ⟨before, after⟩

theorem classify_above (valid : classify none (ps ++ some (some e) :: qs) = ps ++ some (some e) :: qs) :
    ∀ q ∈ lastSeq none ps, q.toNat < e.seq.toNat := fun q last => by
  have after := (classify_parts valid).2
  rw [Option.mem_def.mp last, classify] at after
  by_contra low
  rw [if_neg low] at after
  cases after

end

/-! ### The sector as it will read -/

/-- Positions that replay can rebuild a directory from, under an epoch, once they all stand (R118, R122). -/
structure WholeLaw (d : Directory) (epoch next : Nat) (whole : List (Option (Option JEntry))) : Prop where
  valid : classify none whole = whole
  usable : usableEpoch whole = some epoch
  next : nextSeq whole = next
  follows : followsJournal d (rebuild whole).dir

section
variable {d : Directory} {epoch next : Nat} {ps qs : List (Option (Option JEntry))}

theorem firstValid_passed (near : validEntries ps = [] → ps.length + 1 ≤ 2) {k : Nat} (first : firstValid 0 (ps ++ qs) = some k) (low : k ≤ 2)
    {e : JEntry} {rest : List (Option (Option JEntry))} (begins : qs = some (some e) :: rest) :
    ∃ k, firstValid 0 (ps ++ some none :: qs) = some k ∧ k ≤ 2 := by
  rw [firstValid_append] at first ⊢
  cases early : firstValid 0 ps with
  | some m =>
    rw [early] at first
    exact ⟨k, first, low⟩
  | none =>
    subst begins
    exact ⟨_, rfl, by have := near ((firstValid_none ps 0).mp early); omega⟩

/-- R115: a position that is passed over changes nothing of what the whole sector will read as. -/
theorem WholeLaw.passed (h : WholeLaw d epoch next (ps ++ qs)) (near : validEntries ps = [] → ps.length + 1 ≤ 2) {e : JEntry}
    {rest : List (Option (Option JEntry))} (begins : qs = some (some e) :: rest) : WholeLaw d epoch next (ps ++ some none :: qs) where
  valid := by
    obtain ⟨before, after⟩ := classify_parts h.valid
    rw [classify_append, before]
    exact congrArg (fun x => ps ++ some none :: x) after
  usable := by
    obtain ⟨k, e, es, w, first, low, entries, header, complete, eq⟩ := (usableEpoch_some _).mp h.usable
    obtain ⟨m, first', low'⟩ := firstValid_passed near first low begins
    refine (usableEpoch_some _).mpr ⟨m, e, es, w, first', low', ?_, header, complete, eq⟩
    rw [validEntries_append] at entries ⊢
    exact entries
  next := by
    refine (nextSeq_congr ?_).trans h.next
    rw [validEntries_append, validEntries_append]
    rfl
  follows := by
    have agree := ((rebuild ps).agrees_skip.foldl qs).dir
    have follows := h.follows
    rw [rebuild_append] at follows ⊢
    rwa [← agree] at follows

end

/-! ### The records of a snapshot when a session ends -/

/-- A slot of a directory is STALE by the end of a session (R12). -/
def staleIn (d : Directory) (v : Vol) (sl : Slot) : Prop := ∀ x ∈ d[v], x.slot sl = { state := .stale, image := none }

/-- A record of a snapshot beside the same record after the end of sessions. -/
def Recast (d : Directory) (r r' : JRecord) : Prop := r' = r ∨ ∃ v sl, staleIn d v sl
  ∧ r = .snapSlot (volByte v) (slotCode sl) (slotStateCode .staging) 0 0 0
  ∧ r' = .snapSlot (volByte v) (slotCode sl) (slotStateCode .stale) 0 0 0

/-- Entries of a snapshot beside the same entries after the end of sessions. -/
abbrev RecastAll (d : Directory) : List JEntry → List JEntry → Prop := List.Forall₂ (fun e e' => e'.seq = e.seq ∧ Recast d e.content e'.content)

section
variable {d : Directory} {r r' : JRecord} {es es' fs : List JEntry}

theorem Recast.refl (r : JRecord) : Recast d r r := .inl rfl

theorem RecastAll.refl (es : List JEntry) : RecastAll d es es := List.forall₂_same.mpr fun _ _ => ⟨rfl, .refl _⟩

theorem RecastAll.append (h : RecastAll d es es') : RecastAll d (fs ++ es) (fs ++ es') := List.rel_append (RecastAll.refl fs) h

theorem Recast.isSnapBody (h : Recast d r r') : isSnapBody r' = isSnapBody r := by
  rcases h with rfl | ⟨v, sl, -, rfl, rfl⟩ <;> rfl

theorem RecastAll.complete (h : RecastAll d es es') (n : Nat) : snapshotComplete n es' = snapshotComplete n es := by
  induction h generalizing n with
  | nil => rfl
  | cons here _ ih =>
    rw [snapshotComplete, snapshotComplete]
    rcases here.2 with same | ⟨v, sl, -, before, after⟩
    · rw [same]
      simp only [ih]
    · rw [before, after]
      exact ih _

theorem RecastAll.seqs (h : RecastAll d es es') : es'.map JEntry.seq = es.map JEntry.seq := by
  induction h with
  | nil => rfl
  | cons here _ ih => rw [List.map_cons, List.map_cons, here.1, ih]

theorem RecastAll.classify (h : RecastAll d es es') (last : Option Word) (valid : classify last (entriesAt es) = entriesAt es) :
    Machine.classify last (entriesAt es') = entriesAt es' := by
  induction h generalizing last with
  | nil => rfl
  | @cons e e' _ _ here _ ih =>
    rw [entriesAt, List.map_cons] at valid ⊢
    cases last with
    | none =>
      rw [Machine.classify, List.cons.injEq] at valid ⊢
      rw [here.1]
      exact ⟨rfl, ih _ valid.2⟩
    | some q =>
      rw [Machine.classify] at valid ⊢
      rw [here.1]
      split at valid
      · rename_i above
        rw [if_pos above]
        exact congrArg _ (ih _ (List.cons.inj valid).2)
      · cases valid

theorem firstValid_recast (h : RecastAll d es es') (k : Nat) : firstValid k (entriesAt es') = firstValid k (entriesAt es) := by
  cases h with
  | nil => rfl
  | cons => rfl

variable {ps : List (Option (Option JEntry))} {epoch next : Nat}

theorem usableEpoch_recast (h : RecastAll d es es') (usable : usableEpoch (ps ++ entriesAt es) = some epoch) :
    usableEpoch (ps ++ entriesAt es') = some epoch := by
  obtain ⟨k, e, rest, w, first, near, entries, header, complete, eq⟩ := (usableEpoch_some _).mp usable
  rw [firstValid_append, ← firstValid_recast h, ← firstValid_append] at first
  rw [validEntries_append, validEntries_entriesAt] at entries
  have all : RecastAll d (validEntries ps ++ es) (validEntries ps ++ es') := h.append
  rw [entries] at all
  cases new : validEntries ps ++ es' with
  | nil =>
    rw [new] at all
    cases all
  | cons e' rest' =>
    rw [new] at all
    obtain ⟨⟨-, here⟩, others⟩ := List.forall₂_cons.mp all
    have header' : e'.content = .header w := by
      rcases here with same | ⟨v, sl, -, before, -⟩
      · rw [same, header]
      · rw [header] at before
        cases before
    refine (usableEpoch_some _).mpr ⟨k, e', rest', w, first, near, ?_, header', (RecastAll.complete others 1).trans complete, eq⟩
    rw [validEntries_append, validEntries_entriesAt, new]

theorem nextSeq_eq_of_seqs (ps : List (Option (Option JEntry))) :
    nextSeq ps = (((validEntries ps).map JEntry.seq).getLast?.map (fun q => q.toNat + 1)).getD 1 := by
  rw [nextSeq, List.getLast?_map]
  cases (validEntries ps).getLast? <;> rfl

theorem nextSeq_recast (h : RecastAll d es es') : nextSeq (ps ++ entriesAt es') = nextSeq (ps ++ entriesAt es) := by
  have all : RecastAll d (validEntries ps ++ es) (validEntries ps ++ es') := h.append
  rw [nextSeq_eq_of_seqs, nextSeq_eq_of_seqs, validEntries_append, validEntries_append, validEntries_entriesAt, validEntries_entriesAt, all.seqs]

/-- A slot of a volume as replay rebuilds it, beside that slot after the end of sessions. -/
def slotRecast (d : Directory) (v : Vol) (sl : Slot) (q q' : SlotRec) : Prop :=
  q' = q ∨ staleIn d v sl ∧ q = { state := .staging, image := none } ∧ q' = { state := .stale, image := none }

/-- A volume as replay rebuilds it, beside that volume after the end of sessions. -/
def Volume.recast (d : Directory) (v : Vol) (x x' : Volume) : Prop :=
  x'.frame = x.frame ∧ ∀ sl, slotRecast d v sl (x.slot sl) (x'.slot sl)

/-- Replay of a snapshot beside that of the same snapshot after the end of sessions. -/
structure Rebuild.Recasts (d : Directory) (r r' : Rebuild) : Prop where
  last : r'.last = r.last
  ended : r'.ended = r.ended
  dir : ∀ v : Vol, (r'.dir[v]).isSome = (r.dir[v]).isSome ∧ ∀ x ∈ r.dir[v], ∀ x' ∈ r'.dir[v], x.recast d v x'

section
variable {b b' : Rebuild} {v : Vol} {x x' : Volume}

theorem Volume.recast_refl (x : Volume) : x.recast d v x := ⟨rfl, fun _ => .inl rfl⟩

theorem Rebuild.Recasts.refl (b : Rebuild) : b.Recasts d b :=
  ⟨rfl, rfl, fun v => ⟨rfl, fun x mem x' mem' => by obtain rfl := Option.some.inj (mem.symm.trans mem'); exact x.recast_refl⟩⟩

theorem Rebuild.Recasts.skip (h : b.Recasts d b') : b.skip.Recasts d b'.skip := ⟨h.last, h.ended, h.dir⟩

theorem Rebuild.Recasts.set (h : b.Recasts d b') (here : x.recast d v x') :
    ∀ w : Vol, ((b'.dir.set v (some x'))[w]).isSome = ((b.dir.set v (some x))[w]).isSome
      ∧ ∀ y ∈ (b.dir.set v (some x))[w], ∀ y' ∈ (b'.dir.set v (some x'))[w], y.recast d w y' := fun w => by
  rw [directory_set_get, directory_set_get]
  split
  · rename_i same
    subst same
    exact ⟨rfl, fun y mem y' mem' => by cases mem; cases mem'; exact here⟩
  · exact h.dir w

theorem Rebuild.Recasts.unread (h : b.Recasts d b') : b'.dir[v] = none ↔ b.dir[v] = none := by
  rw [← Option.isNone_iff_eq_none, ← Option.isNone_iff_eq_none, ← Option.not_isSome, ← Option.not_isSome, (h.dir v).1]

theorem Volume.recast.setSlot (h : x.recast d v x') {sl : Slot} {q q' : SlotRec} (here : slotRecast d v sl q q') :
    (x.setSlot sl q).recast d v (x'.setSlot sl q') := by
  refine ⟨by rw [Volume.frame_setSlot, Volume.frame_setSlot, h.1], fun sm => ?_⟩
  rcases eq_or_ne sm sl with rfl | ne
  · rw [Volume.slot_setSlot_same, Volume.slot_setSlot_same]
    exact here
  · have other : sm = sl.other := by cases sm <;> cases sl <;> first | rfl | exact absurd rfl ne
    rw [other, Volume.slot_setSlot_other, Volume.slot_setSlot_other]
    exact h.2 _

theorem Rebuild.Recasts.readVol (h : b.Recasts d b') (c : Byte) (label : Half) (size : Byte) (baseA baseB : Half)
    (rd wr pinned : Byte) (gen : Word) : (rebuildVol b c label size baseA baseB rd wr pinned gen).Recasts d
      (rebuildVol b' c label size baseA baseB rd wr pinned gen) := by
  have next : ({ b with last := some c } : Rebuild).Recasts d { b' with last := some c } := ⟨rfl, h.ended, h.dir⟩
  unfold rebuildVol
  cases volIndex c with
  | none => exact next.skip
  | some v =>
    simp only [h.unread]
    split
    · exact ⟨rfl, h.ended, h.set (Volume.recast_refl _)⟩
    · exact next.skip

/-- A slot that replay has read (R123). -/
def Rebuild.setSlot (b : Rebuild) (c : Byte) (sl : Slot) (q : SlotRec) : Rebuild :=
  match onVolume b.dir c (fun x => some (x.setSlot sl q)) with
  | some d => { b with dir := d }
  | none => b.skip

theorem Rebuild.setSlot_used (c : Byte) (sl : Slot) (q : SlotRec) (named : volIndex c = some v) (used : b.dir[v] = some x) :
    b.setSlot c sl q = { b with dir := b.dir.set v (some (x.setSlot sl q)) } := by
  have set := onVolume_eq (f := fun y => some (y.setSlot sl q)) named used rfl
  simp only [Rebuild.setSlot, set]

theorem Rebuild.setSlot_unused (c : Byte) (sl : Slot) (q : SlotRec) (unused : ∀ v, volIndex c = some v → b.dir[v] = none) :
    b.setSlot c sl q = b.skip := by
  have none : onVolume b.dir c (fun x => some (x.setSlot sl q)) = none := by
    unfold onVolume
    cases named : volIndex c with
    | none => rfl
    | some v => simp only [unused v named]
  simp only [Rebuild.setSlot, none]

theorem Rebuild.Recasts.setSlot (h : b.Recasts d b') (c : Byte) (sl : Slot) {q q' : SlotRec}
    (here : ∀ v, volIndex c = some v → slotRecast d v sl q q') : (b.setSlot c sl q).Recasts d (b'.setSlot c sl q') := by
  by_cases some : ∃ v x, volIndex c = some v ∧ b.dir[v] = some x
  · obtain ⟨v, x, named, used⟩ := some
    have there := (h.dir v).1
    rw [used] at there
    obtain ⟨x', used'⟩ := Option.isSome_iff_exists.mp there
    rw [Rebuild.setSlot_used c sl q named used, Rebuild.setSlot_used c sl q' named used']
    exact ⟨h.last, h.ended, h.set (((h.dir v).2 x used x' used').setSlot (here v named))⟩
  · have unused (v : Vol) (named : volIndex c = Option.some v) : b.dir[v] = none :=
      Option.eq_none_iff_forall_ne_some.mpr fun x used => some ⟨v, x, named, used⟩
    rw [Rebuild.setSlot_unused c sl q unused, Rebuild.setSlot_unused c sl q' fun v named => h.unread.mpr (unused v named)]
    exact h.skip

theorem rebuildSlot_read {c slot state : Byte} {sl : Slot} {t : SlotState} (named : slotOfCode slot = some sl)
    (known : slotStateOfCode state = some t) (last : b.last = some c) (gen len crc : Word) :
    rebuildSlot b c slot state gen len crc = b.setSlot c sl { state := t, image := imageOf gen len crc } := by
  simp only [rebuildSlot, named, known, last, if_true, Rebuild.setSlot] <;> rfl

theorem rebuildSlot_skips {c slot state : Byte}
    (bad : slotOfCode slot = none ∨ slotStateOfCode state = none ∨ b.last ≠ some c) (gen len crc : Word) :
    rebuildSlot b c slot state gen len crc = b.skip := by
  unfold rebuildSlot
  split
  · rename_i sl t named known
    rcases bad with no | no | other
    · rw [no] at named
      cases named
    · rw [no] at known
      cases known
    · rw [if_neg other]
  · rfl

theorem Rebuild.Recasts.readSlot (h : b.Recasts d b') (c slot state : Byte) (gen len crc : Word) :
    (rebuildSlot b c slot state gen len crc).Recasts d (rebuildSlot b' c slot state gen len crc) := by
  by_cases bad : slotOfCode slot = none ∨ slotStateOfCode state = none ∨ b.last ≠ some c
  · rw [rebuildSlot_skips bad, rebuildSlot_skips (h.last ▸ bad)]
    exact h.skip
  · rw [not_or, not_or, not_not] at bad
    obtain ⟨known, named, last⟩ := bad
    obtain ⟨sl, known⟩ := Option.ne_none_iff_exists'.mp known
    obtain ⟨t, named⟩ := Option.ne_none_iff_exists'.mp named
    rw [rebuildSlot_read known named last, rebuildSlot_read known named (h.last.trans last)]
    exact h.setSlot c sl fun _ _ => .inl rfl

/-- After its SNAP_END replay takes no record of a snapshot (R124). -/
theorem applyRecord_snapshot {c : JRecord} (snapshot : isSnapBody c = true ∨ isSnapEnd c = true) (e : Directory) : applyRecord c e = none := by
  cases c with
  | snapVol => rfl
  | snapSlot => rfl
  | snapEnd => rfl
  | _ => rcases snapshot with no | no <;> cases no

theorem volIndex_volByte_eq {v w : Vol} (named : volIndex (volByte v) = some w) : w = v := volIndex_named rfl named

/-- One record of a snapshot, read on both sides. -/
theorem Rebuild.Recasts.read (h : b.Recasts d b') {c c' : JRecord} (here : Recast d c c')
    (snapshot : isSnapBody c = true ∨ isSnapEnd c = true) : (b.read c).Recasts d (b'.read c') := by
  cases before : b.ended with
  | true =>
    have snapshot' : isSnapBody c' = true ∨ isSnapEnd c' = true := by
      rcases here with rfl | ⟨v, sl, -, rfl, rfl⟩
      · exact snapshot
      · exact .inl rfl
    rw [Rebuild.read_unapplied before (applyRecord_snapshot snapshot _),
      Rebuild.read_unapplied (h.ended.trans before) (applyRecord_snapshot snapshot' _)]
    exact h.skip
  | false =>
    have before' := h.ended.trans before
    rcases here with rfl | ⟨v, sl, stale, rfl, rfl⟩
    · simp only [Rebuild.read, rebuildEntry, before, before', Bool.false_eq_true, if_false]
      cases c' with
      | snapVol => exact h.readVol _ _ _ _ _ _ _ _ _
      | snapSlot => exact h.readSlot _ _ _ _ _ _
      | snapEnd => exact ⟨h.last, rfl, h.dir⟩
      | _ => rcases snapshot with no | no <;> cases no
    · simp only [Rebuild.read, rebuildEntry, before, before', Bool.false_eq_true, if_false]
      by_cases last : b.last = some (volByte v)
      · rw [rebuildSlot_read (slotOfCode_slotCode sl) (slotStateOfCode_slotStateCode _) last,
          rebuildSlot_read (slotOfCode_slotCode sl) (slotStateOfCode_slotStateCode _) (h.last.trans last)]
        refine h.setSlot _ sl fun w named => ?_
        rw [volIndex_volByte_eq named]
        exact .inr ⟨stale, rfl, rfl⟩
      · rw [rebuildSlot_skips (.inr (.inr last)), rebuildSlot_skips (.inr (.inr (h.last ▸ last)))]
        exact h.skip

end

/-- The rest of a snapshot, read on both sides. -/
theorem Rebuild.Recasts.foldl {b b' : Rebuild} (h : b.Recasts d b') (all : RecastAll d es es')
    (snapshot : ∀ e ∈ es, isSnapBody e.content = true ∨ isSnapEnd e.content = true) :
    ((entriesAt es).foldl rebuildStep b).Recasts d ((entriesAt es').foldl rebuildStep b') := by
  induction all generalizing b b' with
  | nil => exact h
  | cons here _ ih =>
    rw [entriesAt, entriesAt, List.map_cons, List.map_cons, List.foldl_cons, List.foldl_cons, rebuildStep_valid, rebuildStep_valid]
    exact ih (h.read here.2 (snapshot _ List.mem_cons_self)) fun e mem => snapshot e (List.mem_cons_of_mem _ mem)

/-- A directory whose sessions have ended follows what replay makes of the records as they stand then (R12, R118, R128). -/
theorem followsJournal.recast {d d' : Directory} {b b' : Rebuild} (h : followsJournal d b.dir) (ended : Ended d d') (recasts : b.Recasts d' b') :
    followsJournal d' b'.dir := fun v => by
  obtain ⟨there, follows⟩ := h v
  refine ⟨?_, fun x' used' y' mem' => ?_⟩
  · rw [(recasts.dir v).1, ← there]
    rcases ended v with same | map
    · rw [same]
    · rw [map, Option.isSome_map]
  · obtain ⟨x, used, now⟩ := ended.before used'
    have read := (recasts.dir v).1
    rw [mem'] at read
    obtain ⟨y, mem⟩ := Option.isSome_iff_exists.mp read.symm
    have before := follows x used y mem
    have still : x'.follows y := by
      rcases now with rfl | rfl
      · exact before
      · exact Volume.follows_trans x.follows_endSession before
    obtain ⟨frame, slots⟩ := (recasts.dir v).2 y mem y' mem'
    refine Volume.follows_iff.mpr ⟨fun sl => ?_, still.frame.trans frame.symm⟩
    rcases slots sl with same | ⟨stale, -, now⟩
    · rw [same]
      exact still.slot sl
    · rw [now]
      exact .inl (stale x' used')

/-- A whole sector whose last records are taken again after the end of sessions (R12, R118). -/
theorem WholeLaw.recast {d d' : Directory} {first : List JEntry} (h : WholeLaw d epoch next (ps ++ entriesAt (first ++ es))) (ended : Ended d d')
    (all : RecastAll d' es es') (snapshot : ∀ e ∈ es, isSnapBody e.content = true ∨ isSnapEnd e.content = true) :
    WholeLaw d' epoch next (ps ++ entriesAt (first ++ es')) where
  valid := by
    obtain ⟨before, after⟩ := classify_parts h.valid
    rw [classify_append, before]
    exact congrArg _ (RecastAll.classify all.append _ after)
  usable := usableEpoch_recast all.append h.usable
  next := (nextSeq_recast all.append).trans h.next
  follows := by
    have split (fs : List JEntry) : ps ++ entriesAt (first ++ fs) = (ps ++ entriesAt first) ++ entriesAt fs := by
      rw [entriesAt, List.map_append, ← List.append_assoc]
      rfl
    have follows := h.follows
    rw [split, rebuild_append] at follows ⊢
    exact follows.recast ended ((Rebuild.Recasts.refl _).foldl all snapshot)

end

end Sys2Proof.Machine
end

section
/-! A COMPACT or a FORMAT in its own sector: what stands there, what has still to be written, and the steps on the way (R115, R117 to
R120, R133). -/

namespace Sys2Proof.Machine

/-! ### The rest of a snapshot -/

/-- The entries of a snapshot that follow the one under program (R118). -/
def snapshotRest (d : Directory) (seq written : Nat) (todo : List SnapItem) : List JEntry :=
  todo.mapIdx (fun i item => { seq := BitVec.ofNat 32 (seq + 1 + i), content := itemRecord d (written + 1 + i) item })

section
variable {d d' : Directory} {seq written : Nat} {todo : List SnapItem}

theorem snapshotRest_cons (item : SnapItem) (rest : List SnapItem) : snapshotRest d seq written (item :: rest)
    = { seq := BitVec.ofNat 32 (seq + 1), content := itemRecord d (written + 1) item } :: snapshotRest d (seq + 1) (written + 1) rest := by
  rw [snapshotRest, snapshotRest, List.mapIdx_cons]
  simp only [Nat.add_zero, List.cons.injEq, true_and]
  refine congrArg (fun f => List.mapIdx f rest) ?_
  funext i x
  simp only [JEntry.mk.injEq]
  constructor <;> congr 1 <;> omega

theorem snapshotRest_length : (snapshotRest d seq written todo).length = todo.length := List.length_mapIdx

theorem itemRecord_snapshot (n : Nat) (item : SnapItem) :
    isSnapBody (itemRecord d n item) = true ∨ isSnapEnd (itemRecord d n item) = true := by
  cases item with
  | vol v => cases used : d[v] <;> simp only [itemRecord, used] <;> first | exact .inl rfl | exact .inr rfl
  | slot v sl => cases used : d[v] <;> simp only [itemRecord, used] <;> first | exact .inl rfl | exact .inr rfl
  | fin => exact .inr rfl

theorem snapshotRest_snapshot : ∀ e ∈ snapshotRest d seq written todo, isSnapBody e.content = true ∨ isSnapEnd e.content = true := by
  induction todo generalizing seq written with
  | nil => exact fun _ mem => nomatch mem
  | cons item rest ih =>
    rw [snapshotRest_cons]
    intro e mem
    rcases List.mem_cons.mp mem with rfl | mem
    · exact itemRecord_snapshot _ _
    · exact ih e mem

theorem snapVolOf_endSession (v : Vol) (x : Volume) : snapVolOf v x.endSession = snapVolOf v x := rfl

/-- The record of an item when sessions have ended (R12, R118). -/
theorem itemRecord_recast (ended : Ended d d') (kept : ∀ v : Vol, ∀ x ∈ d[v], x.kept) (n : Nat) (item : SnapItem) :
    Recast d' (itemRecord d n item) (itemRecord d' n item) := by
  cases item with
  | fin => exact .refl _
  | vol v =>
    refine .inl ?_
    rcases ended v with same | map
    · simp only [itemRecord, same]
    · cases used : d[v] with
      | none =>
        rw [used] at map
        simp only [itemRecord, used, map, Option.map_none]
      | some x =>
        rw [used] at map
        simp only [itemRecord, used, map, Option.map_some, snapVolOf_endSession]
  | slot v sl =>
    rcases ended v with same | map
    · exact .inl (by simp only [itemRecord, same])
    · cases used : d[v] with
      | none =>
        rw [used] at map
        exact .inl (by simp only [itemRecord, used, map, Option.map_none])
      | some x =>
        rw [used] at map
        simp only [itemRecord, used, map, Option.map_some, snapSlotOf, Volume.endSession_slot]
        by_cases staging : (x.slot sl).state = .staging
        · have sound : (x.slot sl).sound x.genCounter := by
            obtain ⟨a, b, -⟩ := (kept v x used).1
            cases sl with
            | a => exact a
            | b => exact b
          have bare : x.slot sl = { state := .staging, image := none } := by
            have image := sound.2.1 (.inr staging)
            revert staging image
            cases x.slot sl
            rintro rfl rfl
            rfl
          refine .inr ⟨v, sl, fun y used' => ?_, by rw [bare]; rfl, by rw [bare]; rfl⟩
          rw [map] at used'
          cases used'
          rw [Volume.endSession_slot, bare]
          rfl
        · rw [SlotRec.endSession_of_ne staging]
          exact .refl _

theorem snapshotRest_recast (ended : Ended d d') (kept : ∀ v : Vol, ∀ x ∈ d[v], x.kept) :
    RecastAll d' (snapshotRest d seq written todo) (snapshotRest d' seq written todo) := by
  induction todo generalizing seq written with
  | nil => exact .nil
  | cons item rest ih =>
    rw [snapshotRest_cons, snapshotRest_cons]
    exact .cons ⟨rfl, itemRecord_recast ended kept _ _⟩ ih

theorem Recast.isSnapEnd {r r' : JRecord} (h : Recast d r r') : isSnapEnd r' = isSnapEnd r := by
  rcases h with rfl | ⟨v, sl, -, rfl, rfl⟩ <;> rfl

theorem RecastAll.ends {es es' : List JEntry} (h : RecastAll d es es') :
    es'.map (fun e => isSnapEnd e.content) = es.map (fun e => isSnapEnd e.content) := by
  induction h with
  | nil => rfl
  | cons here _ ih => rw [List.map_cons, List.map_cons, here.2.isSnapEnd, ih]

end

/-! ### The law of the sector -/

/-- What stands in the sector of a COMPACT or a FORMAT, and what it will read as. -/
structure OwnLaw (st : Store) (d : Directory) (entry : Option JEntry) (tries : Nat) (i : JSector) (o : OwnSector) : Prop where
  pos : o.pos ≤ Config.maxTries * o.written + tries
  tries : tries < Config.maxTries
  seq : o.seq ≤ o.pos + 1
  short : o.written + o.todo.length ≤ 97
  written : (validEntries ((judged st i).take o.pos)).length = o.written
  blank : blankFrom o.pos (judged st i)
  unusable : usableEpoch (judged st i) = none
  ends : (entry.toList ++ snapshotRest d o.seq o.written o.todo).map (fun e => isSnapEnd e.content)
    = List.replicate o.todo.length false ++ [true]
  whole : WholeLaw d o.epoch (o.seq + o.todo.length + 1)
    ((judged st i).take o.pos ++ entriesAt (entry.toList ++ snapshotRest d o.seq o.written o.todo))

/-- The sector is the one that the operation may write (R117, R133). -/
def State.ownPurpose (s : State) (k : Kind) (i : JSector) (epoch : Nat) : Prop :=
  (k = .compact ∧ ∃ j ∈ s.journal, i = j.sector.other ∧ epoch = nextEpoch j.epoch) ∨ (k = .format ∧ s.mode = .unformatted ∧ i = .j0)

theorem blankFrom_iff {k : Nat} {ps : List (Option (Option JEntry))} : blankFrom k ps ↔ (ps.drop k).all Option.isNone = true := by
  simp only [blankFrom, List.all_eq_true, Option.isNone_iff_eq_none]

section
variable {s t : State} {e : InFlight} {i : JSector} {o : OwnSector}

theorem State.ownLaw_iff : s.ownLaw e i o ↔ OwnLaw s.store s.vols e.entry e.tries i o ∧ s.ownPurpose e.op.kind i o.epoch := by
  constructor
  · rintro ⟨pos, tries, seq, short, written, blank, unusable, ends, valid, usable, next, follows, purpose⟩
    exact ⟨⟨pos, tries, seq, short, written, blankFrom_iff.mpr blank, unusable, ends, ⟨valid, usable, next, follows⟩⟩, purpose⟩
  · rintro ⟨⟨pos, tries, seq, short, written, blank, unusable, ends, ⟨valid, usable, next, follows⟩⟩, purpose⟩
    exact ⟨pos, tries, seq, short, written, blankFrom_iff.mp blank, unusable, ends, valid, usable, next, follows, purpose⟩

end

section
variable {st : Store} {d d' : Directory} {entry : Option JEntry} {tries : Nat} {i : JSector} {o : OwnSector}

/-- The end of sessions changes what is still to be written, and not what it will be read as (R12, R118). -/
theorem OwnLaw.recast (h : OwnLaw st d entry tries i o) (ended : Ended d d') (kept : ∀ v : Vol, ∀ x ∈ d[v], x.kept) :
    OwnLaw st d' entry tries i o :=
  have all := snapshotRest_recast (seq := o.seq) (written := o.written) (todo := o.todo) ended kept
  { h with
    ends := by rw [all.append.ends]; exact h.ends
    whole := h.whole.recast ended all snapshotRest_snapshot }

/-- There is an entry under program, and it is the SNAP_END when nothing follows it. -/
theorem OwnLaw.under (h : OwnLaw st d entry tries i o) : ∃ en, entry = some en ∧ isSnapEnd en.content = o.todo.isEmpty := by
  have ends := h.ends
  cases entry with
  | none =>
    have length := congrArg List.length ends
    simp only [Option.toList_none, List.nil_append, List.length_map, snapshotRest_length, List.length_append, List.length_replicate,
      List.length_singleton] at length
    omega
  | some en =>
    refine ⟨en, rfl, ?_⟩
    cases todo : o.todo with
    | nil =>
      rw [todo] at ends
      exact (List.cons.inj ends).1
    | cons item rest =>
      rw [todo] at ends
      exact (List.cons.inj ends).1

/-! ### One more position of the sector -/

theorem take_written {ps : List (Option (Option JEntry))} {k : Nat} (inside : k < ps.length) (p : Option (Option JEntry)) (n : Nat) :
    (ps.take k ++ p :: List.replicate n none).take (k + 1) = ps.take k ++ [p] := by
  have length : (ps.take k).length = k := by rw [List.length_take]; omega
  rw [List.take_append, length, List.take_of_length_le (by omega), show k + 1 - k = 1 by omega]
  rfl

theorem blankFrom_written {ps : List (Option (Option JEntry))} {k : Nat} (inside : k < ps.length) (p : Option (Option JEntry)) (n : Nat) :
    blankFrom (k + 1) (ps.take k ++ p :: List.replicate n none) := fun q mem => by
  have length : (ps.take k).length = k := by rw [List.length_take]; omega
  rw [List.drop_append, length, List.drop_of_length_le (by omega), show k + 1 - k = 1 by omega] at mem
  exact (List.mem_replicate.mp mem).2

theorem judged_take_length {k : Nat} (inside : k < 2048) : ((judged st i).take k).length = k := by
  rw [List.length_take, judged_length]
  omega

section
variable (h : OwnLaw st d entry tries i o) (wf : st.wf = true) (inside : o.pos < 2048)
include h wf inside

/-- R115: the position whose program failed is passed over. -/
theorem OwnLaw.passed (more : tries + 1 < Config.maxTries) : OwnLaw (st.spoilPosition i o.pos) d entry (tries + 1) i { o with pos := o.pos + 1 } := by
  have here := judged_spoilPosition st wf inside h.blank
  have within : o.pos < (judged st i).length := by rw [judged_length]; exact inside
  have taken := take_written within (some none) (2048 - o.pos - 1)
  have blank := blankFrom_written within (some none) (2048 - o.pos - 1)
  rw [← here] at taken blank
  have pos := h.pos
  have written := h.written
  obtain ⟨en, under, -⟩ := h.under
  rw [Config.maxTries] at pos more
  have near (none : validEntries ((judged st i).take o.pos) = []) : ((judged st i).take o.pos).length + 1 ≤ 2 := by
    rw [none] at written
    rw [judged_take_length inside]
    rw [List.length_nil] at written
    omega
  have whole : ((judged (st.spoilPosition i o.pos) i).take (o.pos + 1)
      ++ entriesAt (entry.toList ++ snapshotRest d o.seq o.written o.todo))
      = (judged st i).take o.pos ++ some none :: entriesAt (entry.toList ++ snapshotRest d o.seq o.written o.todo) := by
    rw [taken, List.append_assoc]
    rfl
  refine ⟨by rw [Config.maxTries]; change o.pos + 1 ≤ 3 * o.written + (tries + 1); omega, more, Nat.le_succ_of_le h.seq, h.short, ?_, blank, ?_, h.ends, ?_⟩
  · rw [taken, validEntries_append, show validEntries [some none] = [] from rfl, List.append_nil]
    exact h.written
  · rw [here, usableEpoch_append_void (validEntries_passedOver _), usableEpoch_written h.blank]
    exact h.unusable
  · rw [whole]
    refine h.whole.passed near (e := en) (rest := entriesAt (snapshotRest d o.seq o.written o.todo)) ?_
    rw [under]
    rfl

/-- The positions of the sector when the entry under program has completed. -/
theorem OwnLaw.judged_entry {en : JEntry} (under : entry = some en) :
    judged (st.program (positionBase i o.pos) (entryBytes en)) i
      = (judged st i).take o.pos ++ some (some en) :: List.replicate (2048 - o.pos - 1) none := by
  refine Machine.judged_entry st wf inside h.blank en ?_
  have valid := h.whole.valid
  rw [under] at valid
  exact classify_above valid

/-- An entry completes and the next one is begun (R118). -/
theorem OwnLaw.advanced {en : JEntry} (under : entry = some en) {item : SnapItem} {rest : List SnapItem} (todo : o.todo = item :: rest) :
    usableEpoch (judged (st.program (positionBase i o.pos) (entryBytes en)) i) = none
    ∧ OwnLaw (st.program (positionBase i o.pos) (entryBytes en)) d
      (some { seq := BitVec.ofNat 32 (o.seq + 1), content := itemRecord d (o.written + 1) item }) 0 i
      { o with pos := o.pos + 1, seq := o.seq + 1, written := o.written + 1, todo := rest } := by
  have here := h.judged_entry wf inside under
  have within : o.pos < (judged st i).length := by rw [judged_length]; exact inside
  have taken := take_written within (some (some en)) (2048 - o.pos - 1)
  have blank := blankFrom_written within (some (some en)) (2048 - o.pos - 1)
  rw [← here] at taken blank
  have other : isSnapEnd en.content = false := by
    obtain ⟨en', under', last⟩ := h.under
    obtain rfl := Option.some.inj (under.symm.trans under')
    rw [last, todo]
    rfl
  have unusable : usableEpoch (judged (st.program (positionBase i o.pos) (entryBytes en)) i) = none := by
    rw [here, List.append_cons, usableEpoch_append_void (validEntries_blank _)]
    exact usableEpoch_concat ((usableEpoch_written h.blank).trans h.unusable) other
  have pos := h.pos
  have tries := h.tries
  have seq := h.seq
  have short := h.short
  rw [todo, List.length_cons] at short
  rw [Config.maxTries] at pos tries
  have ends := h.ends
  have whole := h.whole
  rw [under, todo, snapshotRest_cons] at ends whole
  refine ⟨unusable, ⟨?_, Nat.zero_lt_succ _, Nat.succ_le_succ seq, ?_, ?_, blank, unusable, (List.cons.inj ends).2, ?_⟩⟩
  · rw [Config.maxTries]
    change o.pos + 1 ≤ 3 * (o.written + 1) + 0
    omega
  · change o.written + 1 + rest.length ≤ 97
    omega
  · rw [taken, validEntries_append, List.length_append, h.written]
    rfl
  · have next : o.seq + (rest.length + 1) + 1 = o.seq + 1 + rest.length + 1 := by omega
    rw [taken, List.append_assoc]
    rw [List.length_cons, next] at whole
    exact whole

/-- The SNAP_END completes, and the sector is usable (R119, R133). -/
theorem OwnLaw.switched {en : JEntry} (under : entry = some en) (fin : isSnapEnd en.content = true) :
    let st' := st.program (positionBase i o.pos) (entryBytes en)
    usableAt st' i = some o.epoch ∧ appendAfter 0 (judged st' i) = o.pos + 1 ∧ nextSeq (judged st' i) = o.seq + 1
      ∧ followsJournal d (rebuild (judged st' i)).dir := by
  intro st'
  have here : judged st' i = _ := h.judged_entry wf inside under
  have todo : o.todo = [] := by
    obtain ⟨en', under', last⟩ := h.under
    obtain rfl := Option.some.inj (under.symm.trans under')
    exact List.isEmpty_iff.mp (last.symm.trans fin)
  have whole := h.whole
  rw [under, todo] at whole
  obtain ⟨-, usable, next, follows⟩ := whole
  have append := appendAfter_written ((judged st i).take o.pos) 0 (2048 - o.pos - 1) (p := some (some en)) rfl
  rw [judged_take_length inside, Nat.zero_add] at append
  rw [usableAt, here]
  refine ⟨?_, append, ?_, ?_⟩
  · rw [List.append_cons]
    exact usableEpoch_append usable
  · rw [List.append_cons]
    refine (nextSeq_congr ?_).trans next
    exact validEntries_blanks _ _
  · rw [List.append_cons, rebuild_blanks]
    exact follows

end

/-! ### The first entry -/

theorem snapshotRest_numbered (seq : Nat) (todo : List SnapItem) :
    snapshotRest d seq 0 todo = numbered (seq + 1) (todo.mapIdx fun i item => itemRecord d (i + 1) item) := by
  rw [snapshotRest, numbered, List.mapIdx_mapIdx]
  refine congrArg (fun f => List.mapIdx f todo) ?_
  funext i item
  simp only [Function.comp_apply, Nat.zero_add, Nat.add_comm]

theorem snapshotOf_entries (epoch : Nat) : ({ seq := 1, content := .header (BitVec.ofNat 32 epoch) } : JEntry)
    :: snapshotRest d 1 0 (snapshotItems d) = numbered 1 (snapshotOf d epoch) := by
  rw [snapshotRest_numbered, snapshotOf, numbered_cons]
  rfl

theorem snapshotItems_length (d : Directory) : (snapshotItems d).length = (bodyItems d).length + 1 := by
  rw [snapshotItems_eq, List.length_append, List.length_singleton]

theorem numbered_concat (n : Nat) (rs : List JRecord) (r : JRecord) :
    numbered n (rs ++ [r]) = numbered n rs ++ [{ seq := BitVec.ofNat 32 (n + rs.length), content := r }] := List.mapIdx_concat

theorem snapshotOf_split (epoch : Nat) : snapshotOf d epoch = (.header (BitVec.ofNat 32 epoch) :: (bodyItems d).map (itemRecord d 0))
    ++ [.snapEnd (BitVec.ofNat 16 ((bodyItems d).length + 2))] := by
  rw [snapshotOf, snapshotRecords_eq, List.cons_append]

theorem snapshotOf_next (epoch : Nat) :
    nextSeq (entriesAt (numbered 1 (snapshotOf d epoch))) = 1 + (snapshotItems d).length + 1 := by
  have short := bodyItems_length_le d
  have last := validEntries_entriesAt (numbered 1 (snapshotOf d epoch))
  rw [snapshotOf_split, numbered_concat] at last
  rw [snapshotOf_split, numbered_concat, nextSeq_of_last last, snapshotItems_length, BitVec.toNat_ofNat, List.length_cons, List.length_map]
  omega

theorem snapshotOf_ends (epoch : Nat) : (numbered 1 (snapshotOf d epoch)).map (fun e => isSnapEnd e.content)
    = List.replicate (snapshotItems d).length false ++ [true] := by
  have contents : (numbered 1 (snapshotOf d epoch)).map (fun e => isSnapEnd e.content) = (snapshotOf d epoch).map isSnapEnd := by
    conv_rhs => rw [← numbered_contents 1 (snapshotOf d epoch)]
    rw [List.map_map]
    rfl
  rw [contents, snapshotOf_split, List.map_append, List.map_cons, List.map_map, snapshotItems_length, List.replicate_succ]
  refine congrArg (fun x => (false :: x) ++ [true]) (List.eq_replicate_iff.mpr ⟨List.length_map _, fun b mem => ?_⟩)
  obtain ⟨item, listed, rfl⟩ := List.mem_map.mp mem
  have body := (mem_bodyItems listed).2 0
  change isSnapEnd (itemRecord d 0 item) = false
  cases record : itemRecord d 0 item <;> rw [record] at body <;> first | rfl | cases body

theorem Volume.kept.fits {x : Volume} (kept : x.kept) : x.Fits := by
  obtain ⟨⟨soundA, soundB, -⟩, -, ⟨low, high⟩, ⟨lowA, topA⟩, ⟨lowB, topB⟩, counter, lenA, lenB⟩ := kept
  refine ⟨?_, counter, fun sl image mem => ?_⟩
  · simp only [placed, Bool.and_eq_true, decide_eq_true_eq]
    omega
  · have sound : (x.slot sl).sound x.genCounter ∧ (x.slot sl).len ≤ Config.wordMax := by
      cases sl with
      | a => exact ⟨soundA, lenA⟩
      | b => exact ⟨soundB, lenB⟩
    obtain ⟨⟨-, -, gens⟩, len⟩ := sound
    obtain ⟨first, last⟩ := gens image mem
    have length : (x.slot sl).len = image.len := by rw [SlotRec.len, Option.mem_def.mp mem]; rfl
    exact ⟨first, last.trans counter, length ▸ len⟩

theorem followsJournal_durable (d : Directory) : followsJournal d (d.map (fun x => x.map Volume.durable)) := fun v => by
  have entry : (d.map (fun x => x.map Volume.durable))[v] = (d[v]).map Volume.durable := Vector.getElem_map _ _
  rw [entry]
  refine ⟨(Option.isSome_map).symm, fun x used y mem => ?_⟩
  rw [Option.mem_def.mp used] at mem
  cases mem
  exact ⟨.inl rfl, .inl rfl, rfl⟩

/-- JOURNALING begins in a blank sector with a HEADER (R117, R118, R133). -/
theorem OwnLaw.begun (blank : judged st i = List.replicate 2048 none) (kept : ∀ v : Vol, ∀ x ∈ d[v], x.kept) {epoch : Nat} (low : 1 ≤ epoch)
    (high : epoch ≤ 4294967295) : OwnLaw st d (some { seq := 1, content := .header (BitVec.ofNat 32 epoch) }) 0 i
      { pos := 0, seq := 1, written := 0, epoch := epoch, todo := snapshotItems d } := by
  have short := bodyItems_length_le d
  have entries := snapshotOf_entries (d := d) epoch
  refine ⟨Nat.zero_le _, Nat.zero_lt_succ _, Nat.le_refl _, ?_, rfl, fun p mem => ?_, ?_, ?_, ?_⟩
  · rw [snapshotItems_length]
    change 0 + ((bodyItems d).length + 1) ≤ 97
    omega
  · rw [List.drop_zero, blank] at mem
    exact (List.mem_replicate.mp mem).2
  · rw [blank]
    exact usableEpoch_void (validEntries_blank _)
  · change (_ :: snapshotRest d 1 0 (snapshotItems d)).map _ = _
    rw [entries]
    exact snapshotOf_ends epoch
  · change WholeLaw d epoch (1 + (snapshotItems d).length + 1) (entriesAt (_ :: snapshotRest d 1 0 (snapshotItems d)))
    rw [entries]
    refine ⟨snapshotOf_valid d, snapshotOf_usable d low high, snapshotOf_next epoch, ?_⟩
    obtain ⟨-, -, dir⟩ := snapshotOf_rebuilds d (epoch := epoch) fun v x used => (kept v x used).fits
    rw [dir]
    exact followsJournal_durable d

theorem snapshotItems_empty : snapshotItems (Vector.replicate 32 none) = [.fin] := by
  decide

end

end Sys2Proof.Machine
end

section
/-! The work under way beside the journal (R94, R95, R97, R117, R133), and the steps that leave it as it stands (R12, R128). -/

namespace Sys2Proof.Machine

/-- The sector that an erase in flight may lie in (R94, R117, R133). -/
def State.mayErase (s : State) (k : Kind) (n : Nat) : Prop :=
  (k = .compact ∧ ∃ j ∈ s.journal, n = jsectorNumber j.sector.other)
    ∨ (k = .format ∧ s.mode = .unformatted ∧ (n = 0 ∨ (n = 256 ∧ (judged s.store .j0).all Option.isNone = true)))
    ∨ (k = .erase ∧ n ≠ 0 ∧ n ≠ 256)

section
variable {s t : State} {e f : InFlight} {n pg : Nat} {i : JSector} {o : OwnSector}

theorem State.placeLaw_still (phase : e.phase = .none ∨ e.phase = .verifying ∨ e.phase = .rowWriting) : s.placeLaw e ↔ e.own = none := by
  rcases phase with phase | phase | phase <;> simp only [State.placeLaw, phase]

theorem State.placeLaw_erasing (phase : e.phase = .erasing n) : s.placeLaw e ↔ e.own = none ∧ s.mayErase e.op.kind n := by
  simp only [State.placeLaw, State.mayErase, phase]

theorem State.placeLaw_programming (phase : e.phase = .programming n pg) :
    s.placeLaw e ↔ e.own = none ∧ n ≠ 0 ∧ n ≠ 256 ∧ pg < 256 ∧ e.op.data.length ≤ 256 := by
  simp only [State.placeLaw, phase]

theorem State.placeLaw_own (phase : e.phase = .journaling i) (own : e.own = some o) :
    s.placeLaw e ↔ OwnLaw s.store s.vols e.entry e.tries i o ∧ s.ownPurpose e.op.kind i o.epoch := by
  rw [← State.ownLaw_iff]
  simp only [State.placeLaw, phase, own]

theorem State.placeLaw_record (phase : e.phase = .journaling i) (own : e.own = none) :
    s.placeLaw e ↔ ∃ j ∈ s.journal, i = j.sector ∧ j.append < Config.positions
      ∧ ∀ en ∈ e.entry, en.seq = BitVec.ofNat 32 j.seq ∧ ∀ v ∈ e.op.vol, recordMeans s.vols v en.content := by
  simp only [State.placeLaw, phase, own]

/-- The work in flight stands as it did. -/
structure InFlight.stands (e f : InFlight) : Prop where
  op : f.op = e.op
  phase : f.phase = e.phase
  own : f.own = e.own
  entry : f.entry = e.entry
  tries : f.tries = e.tries

theorem InFlight.stands_refl (e : InFlight) : e.stands e := ⟨rfl, rfl, rfl, rfl, rfl⟩

/-- Nothing of the array, of the journal and of the work in flight changes, and sessions end at most. -/
structure Quiet (s t : State) : Prop where
  store : t.store = s.store
  journal : t.journal = s.journal
  mode : t.mode = s.mode
  vols : Ended s.vols t.vols
  flight : ∀ f ∈ t.engine, ∃ e ∈ s.engine, e.stands f

theorem Quiet.of_eq (store : t.store = s.store) (journal : t.journal = s.journal) (mode : t.mode = s.mode) (vols : t.vols = s.vols)
    (engine : t.engine = s.engine) : Quiet s t where
  store := store
  journal := journal
  mode := mode
  vols := by rw [vols]; exact .refl _
  flight f mem := ⟨f, by rw [← engine]; exact mem, f.stands_refl⟩

theorem Quiet.of_map {g : InFlight → InFlight} (engine : t.engine = s.engine.map g) (stands : ∀ e : InFlight, e.stands (g e)) (store : t.store = s.store)
    (journal : t.journal = s.journal) (mode : t.mode = s.mode) (vols : t.vols = s.vols) : Quiet s t where
  store := store
  journal := journal
  mode := mode
  vols := by rw [vols]; exact .refl _
  flight f mem := by
    rw [engine] at mem
    obtain ⟨e, busy, rfl⟩ := Option.map_eq_some_iff.mp mem
    exact ⟨e, busy, stands e⟩

theorem Move.quiet (m : Move s t) : Quiet s t := by
  have vols := m.tends.vols
  cases m with
  | suspend => exact .of_map rfl (fun _ => ⟨rfl, rfl, rfl, rfl, rfl⟩) rfl rfl rfl rfl
  | revoke c n =>
    obtain ⟨_, _, _, _, _, e, -⟩ := s.revoke_frame c n
    rw [e] at vols ⊢
    exact ⟨rfl, rfl, rfl, vols, fun f mem => ⟨f, mem, f.stands_refl⟩⟩
  | grants =>
    obtain ⟨_, _, _, e, -⟩ := s.grantAll_frame
    rw [e] at vols ⊢
    exact ⟨rfl, rfl, rfl, vols, fun f mem => ⟨f, mem, f.stands_refl⟩⟩
  | receive p wire n =>
    unfold State.receive
    split
    · exact .of_eq rfl rfl rfl rfl rfl
    · split <;> exact .of_eq rfl rfl rfl rfl rfl
  | _ => exact .of_eq rfl rfl rfl rfl rfl

theorem Ask.quiet (a : Ask s t) : Quiet s t := by
  obtain ⟨_, _, _, rfl⟩ := a.frame
  exact .of_eq rfl rfl rfl rfl rfl

theorem Queue.quiet (q : Queue s t) : Quiet s t := by
  obtain ⟨_, rfl⟩ := q.frame
  exact .of_eq rfl rfl rfl rfl rfl

/-- The COMMIT under program is bound to a claim on its volume, whose record no end of a session changes (R39, R55). -/
theorem HoldsFlight.committed (holds : HoldsFlight s t) (bind : s.bindLaw) (records : s.recordLaw) {f : InFlight} (flight : f ∈ t.engine)
    (busy : s.engine = some e) (op : f.op = e.op) (own : e.own = none) {en : JEntry} (entry : e.entry = some en) {v : Vol} (vol : e.op.vol = some v)
    {b c : Byte} {gen len crc : Word} (commit : en.content = .commit b c gen len crc) : t.vols[v] = s.vols[v] := by
  have fits := records e busy own en entry
  rw [commit] at fits
  simp only [recordFits, Bool.and_eq_true, beq_iff_eq] at fits
  obtain ⟨kind, -⟩ := fits
  obtain ⟨c, claim, cl, held, vol'⟩ := bind.1 e busy (by rw [kind]; decide)
  obtain rfl := Option.some.inj (vol.symm.trans vol')
  exact (holds.claims c cl held ((t.flightOf_iff c).mpr ⟨f, flight, by rw [op]; exact claim⟩)).2

/-- The work under way keeps its place through a quiet step (R128). -/
theorem Quiet.placeLaw (quiet : Quiet s t) (holds : HoldsFlight s t) (kept : ∀ v : Vol, ∀ x ∈ s.vols[v], x.kept) (bind : s.bindLaw)
    (records : s.recordLaw) (place : ∀ e ∈ s.engine, s.placeLaw e) : ∀ f ∈ t.engine, t.placeLaw f := fun f mem => by
  obtain ⟨e, busy, ⟨op, phase, own, entry, tries⟩⟩ := quiet.flight f mem
  have before := place e busy
  cases work : e.phase with
  | none => rwa [State.placeLaw_still (.inl (phase.trans work)), own, ← State.placeLaw_still (s := s) (.inl work)]
  | verifying => rwa [State.placeLaw_still (.inr (.inl (phase.trans work))), own, ← State.placeLaw_still (s := s) (.inr (.inl work))]
  | rowWriting => rwa [State.placeLaw_still (.inr (.inr (phase.trans work))), own, ← State.placeLaw_still (s := s) (.inr (.inr work))]
  | erasing n =>
    rw [State.placeLaw_erasing (phase.trans work), own, op, State.mayErase, quiet.journal, quiet.mode, quiet.store]
    exact (State.placeLaw_erasing work).mp before
  | programming n pg =>
    rw [State.placeLaw_programming (phase.trans work), own, op]
    exact (State.placeLaw_programming work).mp before
  | journaling i =>
    cases under : e.own with
    | some o =>
      rw [State.placeLaw_own (phase.trans work) (own.trans under), op, entry, tries, State.ownPurpose, quiet.journal, quiet.mode, quiet.store]
      obtain ⟨law, purpose⟩ := (State.placeLaw_own work under).mp before
      exact ⟨law.recast quiet.vols kept, purpose⟩
    | none =>
      rw [State.placeLaw_record (phase.trans work) (own.trans under), op, entry, quiet.journal]
      obtain ⟨j, journal, sector, inside, means⟩ := (State.placeLaw_record work under).mp before
      refine ⟨j, journal, sector, inside, fun en mem' => ⟨(means en mem').1, fun v vol => ?_⟩⟩
      exact recordMeans_of_follows quiet.vols.follows ((means en mem').2 v vol)
        fun _ _ _ _ _ commit => holds.committed bind records mem busy op under mem' vol commit

theorem Quiet.founded (quiet : Quiet s t) (law : s.Founded) : t.Founded :=
  law.quiet (by rw [quiet.store]; exact .refl _) quiet.journal quiet.vols.follows (.inl quiet.mode)

end

end Sys2Proof.Machine
end

section
/-! The start of an operation beside the journal: where its first phase works, and what its record means (R14, R72, R90, R94, R114,
R117, R133). -/

namespace Sys2Proof.Machine

/-- The laws that the law of the journal rests on at each step. -/
structure State.Recorded (s : State) : Prop where
  unique : s.uniqueLaw
  records : s.recordLaw
  founded : s.Founded
  place : ∀ e ∈ s.engine, s.placeLaw e
  bind : s.bindLaw

/-! ### Placement (R14) -/

theorem FreeRun.clear {d : Directory} {a b n : Nat} (runA : FreeRun d 1 256 a n) (runB : FreeRun d 257 512 b n)
    (lowest : n = 0 → a = 1 ∧ b = 257) {v : Vol} {y : Volume} (used : d[v] = some y) (kept : y.kept) : y.clearOf n a b := by
  obtain ⟨-, -, ⟨sizeLow, -⟩, ⟨lowA, -⟩, ⟨lowB, -⟩, -⟩ := kept
  obtain ⟨-, -, freeA⟩ := FreeRun_iff.mp runA
  obtain ⟨-, -, freeB⟩ := FreeRun_iff.mp runB
  rcases Nat.eq_zero_or_pos n with rfl | some
  · obtain ⟨rfl, rfl⟩ := lowest rfl
    exact ⟨.inl (by omega), .inl (by omega)⟩
  · have clear (c base : Nat) (free : ∀ i < n, ¬(base ≤ c + i ∧ c + i < base + y.size)) : c + n ≤ base ∨ base + y.size ≤ c := by
      by_contra overlap
      rw [not_or, not_le, not_le] at overlap
      rcases Nat.le_total base c with le | le
      · exact free 0 some ⟨by omega, by omega⟩
      · exact free (base - c) (by omega) ⟨by omega, by omega⟩
    exact ⟨clear a y.baseA fun i lt => (freeA i lt v y used).1, clear b y.baseB fun i lt => (freeB i lt v y used).2⟩

/-- The record of a CREATE_VOLUME places both slots on sectors that no volume owns (R14, R16). -/
theorem recordMeans_create {d : Directory} (kept : ∀ v : Vol, ∀ x ∈ d[v], x.kept) {v : Vol} {c : Byte} {label : Half} {ps : List Byte} {a b : Nat}
    {rd wr : Byte} (placed : place d (createSize ps) = some (a, b)) :
    recordMeans d v (.create c label (byteOf (createSize ps)) (BitVec.ofNat 16 a) (BitVec.ofNat 16 b) rd wr) := by
  obtain ⟨firstA, firstB⟩ := place_some.mp placed
  obtain ⟨runA, lowA⟩ := firstRun_some.mp firstA
  obtain ⟨runB, lowB⟩ := firstRun_some.mp firstB
  have size : (byteOf (createSize ps)).toNat = createSize ps := by
    rw [byteOf, createSize, BitVec.ofNat_toNat, BitVec.setWidth_eq]
  have topA := runA.2.1
  have topB := runB.2.1
  have wordA : (BitVec.ofNat 16 a).toNat = a := by
    rw [BitVec.toNat_ofNat]
    omega
  have wordB : (BitVec.ofNat 16 b).toNat = b := by
    rw [BitVec.toNat_ofNat]
    omega
  have lowest (none : createSize ps = 0) : a = 1 ∧ b = 257 := by
    have emptyA : FreeRun d 1 256 1 (createSize ps) := by rw [none]; exact ⟨le_rfl, by decide, fun i lt => absurd lt (Nat.not_lt_zero i)⟩
    have emptyB : FreeRun d 257 512 257 (createSize ps) := by rw [none]; exact ⟨le_rfl, by decide, fun i lt => absurd lt (Nat.not_lt_zero i)⟩
    have a1 := Nat.not_lt.mp fun lt => lowA 1 lt emptyA
    have b1 := Nat.not_lt.mp fun lt => lowB 257 lt emptyB
    exact ⟨le_antisymm a1 runA.1, le_antisymm b1 runB.1⟩
  simp only [recordMeans, size, wordA, wordB]
  exact ⟨topA, topB, fun w y used => runA.clear runB lowest used (kept w y used)⟩

/-! ### The first phase -/

section
variable {s t : State} {o : Op}

/-- A record just begun is the next entry of the current sector (R114). -/
theorem State.begun_placeLaw {j : Journal} {r : JRecord} (journal : s.journal = some j) (inside : j.append < Config.positions)
    (fresh : ∀ e ∈ s.engine, e.own = none) (means : ∀ e ∈ s.engine, ∀ v ∈ e.op.vol, recordMeans s.vols v r) :
    ∀ f ∈ (s.begun j r).engine, (s.begun j r).placeLaw f := fun f mem => by
  obtain ⟨e, busy, rfl⟩ := Option.map_eq_some_iff.mp mem
  refine (State.placeLaw_record (i := j.sector) rfl (by exact fresh e busy)).mpr ⟨j, journal, rfl, inside, fun en entry => ?_⟩
  cases entry
  exact ⟨rfl, means e busy⟩

theorem recordMeans_stage {d : Directory} {v : Vol} {x : Volume} (used : d[v] = some x) (b : Byte) :
    recordMeans d v (.stage b (slotCode x.target)) := fun y used' => by
  obtain rfl := Option.some.inj (used.symm.trans used')
  exact slotOfCode_slotCode _

theorem programPage_lt (ps : List Byte) : programPage ps < 256 := by
  rw [programPage, Config.sectorBytes, Config.pageBytes]
  omega

/-- The first phase of an operation works where R94, R97, R117 and R133 say. -/
theorem Begun.placeLaw (h : Begun o s t) (kept : ∀ v : Vol, ∀ x ∈ s.vols[v], x.kept)
    (fresh : ∀ e ∈ s.engine, e.op = o ∧ e.own = none ∧ e.phase = .none) (data : o.kind = .program → 1 ≤ programLength o.params ∧ o.data.length ≤ 256) :
    ∀ f ∈ t.engine, t.placeLaw f := by
  have record {j : Journal} {r : JRecord} (journal : s.journal = some j) (inside : j.append < Config.positions) {v : Vol} (vol : o.vol = some v)
      (means : recordMeans s.vols v r) : ∀ f ∈ (s.begun j r).engine, (s.begun j r).placeLaw f :=
    State.begun_placeLaw journal inside (fun e busy => (fresh e busy).2.1) fun e busy w mem => by
      rw [(fresh e busy).1, vol] at mem
      cases mem
      exact means
  have still {ph : Phase} (phase : ph = .verifying ∨ ph = .rowWriting) : ∀ f ∈ (s.enter ph).engine, (s.enter ph).placeLaw f := fun f mem => by
    obtain ⟨e, busy, rfl⟩ := Option.map_eq_some_iff.mp mem
    exact (State.placeLaw_still (.inr phase)).mpr (fresh e busy).2.1
  have erases {n : Nat} (may : s.mayErase o.kind n) : ∀ f ∈ (s.enter (.erasing n)).engine, (s.enter (.erasing n)).placeLaw f := fun f mem => by
    obtain ⟨e, busy, rfl⟩ := Option.map_eq_some_iff.mp mem
    obtain ⟨op, own, -⟩ := fresh e busy
    refine (State.placeLaw_erasing rfl).mpr ⟨own, ?_⟩
    change (s.enter (.erasing n)).mayErase e.op.kind n
    rw [op]
    exact may
  have sector := h.workSector (fun e busy => ⟨(fresh e busy).1, (fresh e busy).2.2⟩) fun kind => (data kind).1
  cases h with
  | create v a b j kind vol unused place journal inside => exact record journal inside vol (recordMeans_create kept place)
  | delete v x j kind vol used unclaimed unseenA unseenB journal inside =>
    intro f mem
    obtain ⟨e, busy, rfl⟩ := Option.map_eq_some_iff.mp mem
    refine (State.placeLaw_record (i := j.sector) rfl (by exact (fresh e busy).2.1)).mpr ⟨j, journal, rfl, inside, fun en entry => ?_⟩
    cases entry
    exact ⟨rfl, fun _ _ => trivial⟩
  | access v x j rd wr kind vol used journal inside => exact record journal inside vol trivial
  | pin v x j kind vol used journal inside => exact record journal inside vol trivial
  | unpin v x j kind vol used journal inside => exact record journal inside vol trivial
  | stage v x j kind vol used noStaging unseen journal inside => exact record journal inside vol (recordMeans_stage used _)
  | rollback v x j kind vol used noStaging previous journal inside => exact record journal inside vol trivial
  | erase v x sl kind vol used staging inside =>
    have spans : x.spans sl (x.base sl + eraseSectorIx o.params) := ⟨by omega, by omega⟩
    exact erases (.inr (.inr ⟨kind, (kept v x used).notJournal spans⟩))
  | program v x sl kind vol used staging inside =>
    intro f mem
    obtain ⟨-, w, y, sm, -, used', -, low, high⟩ := sector f mem _ (by
      obtain ⟨e, busy, rfl⟩ := Option.map_eq_some_iff.mp mem
      rfl)
    obtain ⟨e, busy, rfl⟩ := Option.map_eq_some_iff.mp mem
    obtain ⟨op, own, -⟩ := fresh e busy
    obtain ⟨notFirst, notSecond⟩ := (kept w y used').notJournal (sl := sm) ⟨low, high⟩
    refine (State.placeLaw_programming rfl).mpr ⟨own, notFirst, notSecond, programPage_lt _, ?_⟩
    change e.op.data.length ≤ 256
    rw [op]
    exact (data kind).2
  | commit v x kind vol used staging counter => exact still (.inl rfl)
  | format kind mode => exact erases (.inr (.inl ⟨kind, mode, .inl rfl⟩))
  | provision kind blank => exact still (.inr rfl)
  | compact j kind mode journal => exact erases (.inl ⟨kind, j, journal, rfl⟩)

/-! ### Moves, answers and picks -/

theorem Move.recorded (m : Move s t) (law : s.Recorded) : t.Recorded where
  unique := m.uniqueLaw law.unique
  records := m.flies.recordLaw law.records
  founded := m.quiet.founded law.founded
  place := m.quiet.placeLaw (m.holdsFlight law.unique) law.founded.dirs.2 law.bind law.records law.place
  bind := law.bind.step m.holdsQueue (m.holdsFlight law.unique)

theorem Ask.recorded (a : Ask s t) (law : s.Recorded) : t.Recorded where
  unique := a.uniqueLaw law.unique
  records := a.flies.recordLaw law.records
  founded := a.quiet.founded law.founded
  place := a.quiet.placeLaw a.holdsFlight law.founded.dirs.2 law.bind law.records law.place
  bind := law.bind.step a.holdsQueue a.holdsFlight

theorem Queue.recorded (q : Queue s t) (law : s.Recorded) : t.Recorded where
  unique := by
    obtain ⟨_, rfl⟩ := q.frame
    exact (Shrinks.of_eq rfl rfl).uniqueLaw law.unique
  records := by
    obtain ⟨_, rfl⟩ := q.frame
    exact law.records
  founded := q.quiet.founded law.founded
  place := q.quiet.placeLaw (by obtain ⟨_, rfl⟩ := q.frame; exact .of_eq rfl rfl rfl) law.founded.dirs.2 law.bind law.records law.place
  bind := q.bindLaw law.bind

/-- A FORMAT, a PROVISION or a COMPACT that fails its start checks changes nothing (R120, R132, R151). -/
theorem startOp_ends_format {st : Status} {body : List Byte} (kind : o.kind = .format ∨ o.kind = .provision ∨ o.kind = .compact)
    (ends : startOp o s = .ends st body t) : t = s := by
  unfold startOp at ends
  split at ends
  · cases ends
    rfl
  · split at ends
    · cases ends
      rfl
    · have start : startKind o s = startFormat s ∨ startKind o s = startProvision s ∨ startKind o s = startCompact s := by
        rcases kind with kind | kind | kind
        · exact .inl (by simp only [startKind, kind])
        · exact .inr (.inl (by simp only [startKind, kind]))
        · exact .inr (.inr (by simp only [startKind, kind]))
      rcases start with start | start | start <;> rw [start] at ends
      · unfold startFormat at ends
        split at ends <;> cases ends
        rfl
      · unfold startProvision at ends
        split at ends <;> cases ends
        rfl
      · unfold startCompact at ends
        split at ends
        · split at ends <;> cases ends
          rfl
        · cases ends
          rfl

theorem Begun.follows (h : Begun o s t) : followsJournal t.vols s.vols := by
  cases h with
  | delete => exact State.onVol_follows fun x => ⟨.inl rfl, .inl rfl, rfl⟩
  | _ => exact .refl _

/-- The operation that a pick takes carries its data (R71). -/
theorem State.takePick_data (bind : s.bindLaw) (picked : s.takePick = some (o, t)) (kind : o.kind = .program) :
    1 ≤ programLength o.params ∧ o.data.length ≤ 256 := by
  rcases State.takePick_op picked with rfl | ⟨p, queued⟩
  · cases kind
  · exact (bind.2 p o queued).1 kind

/-- In UNFORMATTED a pick takes a FORMAT, a PROVISION or a COMPACT (R130). -/
theorem State.takePick_unformatted (modes : s.modeLaw) (mode : s.mode = .unformatted) (picked : s.takePick = some (o, t)) :
    o.kind = .format ∨ o.kind = .provision ∨ o.kind = .compact := by
  obtain ⟨-, only⟩ := (State.modeLaw_iff.mp modes).2.2 mode
  rcases State.takePick_op picked with rfl | ⟨p, queued⟩
  · exact .inr (.inr rfl)
  · exact (only.queued p o queued).imp_right .inl

theorem State.takePick_founded (law : s.Founded) (picked : s.takePick = some (o, t)) : t.Founded := by
  obtain ⟨_, _, _, _, rfl⟩ := s.takePick_frame o t picked
  exact law.quiet (t := { s with fifos := _, compactSlot := _, rr := _, engine := _ }) (.refl _) rfl (.refl _) (.inl rfl)

/-- The end of an operation leaves the journal and sessions, and nothing in flight (R103). -/
theorem State.Founded.finish (law : s.Founded) (st : Status) (body : List Byte) : (s.finish st body).Founded := by
  have vols := ((Tends.refl s).finish st body).vols.follows
  obtain ⟨d, ws, cs, q, finished, -⟩ := s.finish_frame st body
  rw [finished] at vols ⊢
  exact law.quiet (.refl _) rfl vols (.inl rfl)

theorem State.finish_idle {P : InFlight → Prop} (s : State) (st : Status) (body : List Byte) : ∀ e ∈ (s.finish st body).engine, P e := fun e mem => by
  rw [State.finish_engine] at mem
  cases mem

theorem Work.recorded (w : Work s t) (modes : s.modeLaw) (law : s.Recorded) : t.Recorded := by
  have unique := w.uniqueLaw law.unique
  have bind := (w.bindLaws law.bind).1
  cases w with
  | runs u t o idle begun picked starts =>
    obtain ⟨port, flight'⟩ := State.takePick_engine picked
    have begins := startOp_runs starts
    have founded := State.takePick_founded law.founded picked
    have fresh : ∀ e ∈ u.engine, e = flight port o s.values := fun e mem => by
      rw [flight'] at mem
      exact (Option.some.inj mem).symm
    have records := begins.records (fun v x used => (founded.dirs.2 v x used).1) fun e mem => by
      rw [fresh e mem]
      exact ⟨rfl, rfl⟩
    refine ⟨unique, fun e mem _ en entry => (records e mem en entry).1, ?_, ?_, bind⟩
    · have follows := begins.follows
      obtain ⟨_, _, rfl⟩ := begins.frame
      exact founded.quiet (.refl _) rfl follows (.inl rfl)
    · refine begins.placeLaw founded.dirs.2 (fun e mem => ?_) (State.takePick_data law.bind picked)
      rw [fresh e mem]
      exact ⟨rfl, rfl, rfl⟩
  | ends u v o st body idle begun picked starts =>
    have founded := State.takePick_founded law.founded picked
    have mode : u.mode = s.mode := by
      obtain ⟨_, _, _, _, rfl⟩ := s.takePick_frame o u picked
      rfl
    refine ⟨unique, State.finish_idle _ _ _, State.Founded.finish ?_ st body, State.finish_idle _ _ _, bind⟩
    cases unformatted : s.mode with
    | unformatted =>
      rw [startOp_ends_format (State.takePick_unformatted modes unformatted picked) starts]
      exact founded
    | starting => exact absurd unformatted begun
    | _ =>
      have serving := founded.serving (by rw [mode, unformatted]; simp)
      rcases startOp_ends starts with rfl | rfl
      · exact founded
      · exact founded.quiet (.refl _) rfl (.refl _) (.inr ⟨rfl, serving⟩)

end

end Sys2Proof.Machine
end

section
/-! What each event leaves of the journal: replay finds the same, or one entry more, or the sector that a COMPACT or a FORMAT has
completed (R114 to R120, R122 to R128, R133). -/

namespace Sys2Proof.Machine

section
variable {s t : State} {e : InFlight} {b : Bool} {j : Journal}

/-! ### Work outside the current sector -/

theorem jsectorNumber_j1 : jsectorNumber .j1 = 256 := rfl

theorem jsectorNumber_cases (i : JSector) : jsectorNumber i = 0 ∨ jsectorNumber i = 256 := by
  cases i with
  | j0 => exact .inl rfl
  | j1 => exact .inr rfl

theorem ne_jsectorNumber {n : Nat} (h : n ≠ 0 ∧ n ≠ 256) (i : JSector) : n ≠ jsectorNumber i := by
  rcases jsectorNumber_cases i with eq | eq <;> rw [eq]
  · exact h.1
  · exact h.2

/-- A COMPACT and a FORMAT write a sector that replay does not choose (R117, R133). -/
theorem State.ownPurpose.spare {k : Kind} {i : JSector} {epoch : Nat} (purpose : s.ownPurpose k i epoch) (law : s.Founded) : spare s.store i := by
  rcases purpose with ⟨-, j, journal, rfl, -⟩ | ⟨-, mode, -⟩
  · exact (law.current j journal).1.spare
  · exact spare_of_none (law.unformatted mode) i

/-- An erase, ended or cut short, changes nothing that replay finds (R2, R122). -/
theorem State.mayErase.same {k : Kind} {n : Nat} (may : s.mayErase k n) (law : s.Founded) (wf : s.store.wf = true) :
    SameReplay s.store (s.store.eraseSector n) ∧ SameReplay s.store (s.store.spoilSector n) := by
  rcases may with ⟨-, j, journal, rfl⟩ | ⟨-, mode, sector⟩ | ⟨-, other⟩
  · have spares := (law.current j journal).1.spare
    exact ⟨.eraseSector wf spares, .spoilSector wf spares⟩
  · have spares := spare_of_none (law.unformatted mode)
    obtain ⟨i, rfl⟩ : ∃ i, n = jsectorNumber i := by
      rcases sector with first | ⟨second, -⟩
      · exact ⟨.j0, first⟩
      · exact ⟨.j1, second⟩
    exact ⟨.eraseSector wf (spares i), .spoilSector wf (spares i)⟩
  · exact ⟨.of_untouched wf (s.store.eraseSector_wf _ wf) fun i => .eraseSector _ (ne_jsectorNumber other i),
      .of_untouched wf (s.store.spoilSector_wf wf _) fun i => .spoilSector _ (ne_jsectorNumber other i)⟩

/-- A COMPACT or a FORMAT stays within its sector: 98 entries of at most three positions each (R115, R118). -/
theorem OwnLaw.inside {d : Directory} {entry : Option JEntry} {tries : Nat} {i : JSector} {o : OwnSector} {st : Store}
    (own : OwnLaw st d entry tries i o) : o.pos < 2048 := by
  have pos := own.pos
  have tries := own.tries
  have short := own.short
  rw [Config.maxTries] at pos tries
  omega

/-- A position of a COMPACT or a FORMAT that is passed over or cut changes nothing that replay finds (R115, R126). -/
theorem OwnLaw.same {d : Directory} {entry : Option JEntry} {tries : Nat} {i : JSector} {o : OwnSector} {st : Store}
    (own : OwnLaw st d entry tries i o) (wf : st.wf = true) (spares : spare st i) : SameReplay st (st.spoilPosition i o.pos) :=
  .spoilPosition wf spares own.inside own.blank own.unusable

/-- A record whose position is passed over or cut: the current sector stands, and gives the same directory (R115, R126). -/
theorem State.Founded.passed (law : s.Founded) (wf : s.store.wf = true) (journal : s.journal = some j) (inside : j.append < Config.positions)
    (store : t.store = s.store.spoilPosition j.sector j.append) (moved : t.journal = some { j with append := j.append + 1 })
    (vols : t.vols = s.vols) (mode : t.mode ≠ .unformatted) : t.Founded := by
  obtain ⟨stands, follows⟩ := law.current j journal
  obtain ⟨passed, agree⟩ := stands.passed inside wf
  refine .of_stands (by rw [vols]; exact law.dirs) moved (by rw [store]; exact passed) (Nat.le_succ_of_le (law.seq_le journal)) ?_ mode
  rw [vols, store, agree.dir]
  exact follows

/-- What a reset or a loss of power cuts short leaves volumes the part has made (R2, R106, R126). -/
theorem State.abort_found (law : s.Founded) (place : ∀ e ∈ s.engine, s.placeLaw e) (wf : s.store.wf = true) (cut : Cut) :
    foundLaw (s.abort cut).store := by
  unfold State.abort
  split
  · exact law.found
  · rename_i e busy
    have here := place e busy
    split
    · exact law.found
    · exact law.found
    · rename_i n phase
      dsimp only
      exact law.found.same (((State.placeLaw_erasing phase).mp here).2.same law wf).2
    · rename_i n pg phase
      obtain ⟨-, first, second, inside, -⟩ := (State.placeLaw_programming phase).mp here
      exact law.found.same (.of_untouched wf (s.store.spoilPage_wf wf _ _) fun i => .spoilPage _ (ne_jsectorNumber ⟨first, second⟩ i) inside)
    · rename_i i phase
      split
      · exact law.found
      · cases own : e.own with
        | some o =>
          obtain ⟨law', purpose⟩ := (State.placeLaw_own phase own).mp here
          simp only [State.programPosition, own]
          exact law.found.same (law'.same wf (purpose.spare law))
        | none =>
          obtain ⟨j, journal, rfl, inside, -⟩ := (State.placeLaw_record phase own).mp here
          obtain ⟨stands, follows⟩ := law.current j journal
          obtain ⟨passed, agree⟩ := stands.passed inside wf
          simp only [State.programPosition, own, Option.mem_def.mp journal, Option.map_some]
          rw [← agree.dir] at follows
          exact foundLaw_of_stands passed (Nat.le_succ_of_le (law.seq_le journal)) law.dirs follows
    · exact law.found

/-! ### The record under program -/

theorem State.stagedBy_some {v : Vol} {x : Volume} {sl : Slot} (staged : s.stagedBy e = some (v, x, sl)) :
    e.op.vol = some v ∧ s.vols[v] = some x ∧ x.slotIn .staging = some sl := by
  unfold State.stagedBy at staged
  split at staged
  · cases staged
  · rename_i w vol
    split at staged
    · cases staged
    · rename_i y used
      split at staged
      · cases staged
      · rename_i sm staging
        cases staged
        exact ⟨vol, used, staging⟩

/-- After an event the operation in flight writes its own record (R114). -/
theorem Event.recordLaw (h : Event s b t) (modes : s.modeLaw) (law : s.recordLaw) : t.recordLaw := by
  have starts : s.mode = .starting → s.engine = none := fun starting => ((State.modeLaw_iff.mp modes).2.1 starting).2.engine
  have idle (u : State) (none : u.engine = none) : u.recordLaw := fun e mem => by rw [none] at mem; cases mem
  cases h with
  | verified e v x sl len crc u busy kind phase staged length begins =>
    obtain ⟨j, -, -, rfl⟩ := beginRecord_runs begins
    intro y mem _ en entry
    obtain ⟨z, flight, rfl⟩ := Option.map_eq_some_iff.mp mem
    obtain rfl := Option.some.inj (busy.symm.trans flight)
    cases entry
    simp [recordFits, kind, (State.stagedBy_some staged).1]
  | retried => exact Flies.recordLaw (.of_map rfl fun _ _ own => ⟨own, rfl, rfl⟩) law
  | ownRetried | compactErased | ownAdvances => exact Flies.recordLaw (.of_map rfl fun _ _ own => nomatch own) law
  | formatErased e n =>
    unfold Machine.formatErased
    dsimp only
    split
    · exact Flies.recordLaw (.of_map rfl fun _ _ own => ⟨own, rfl, rfl⟩) law
    · exact Flies.recordLaw (.of_map rfl fun _ _ own => nomatch own) law
  | pinenRises =>
    refine (Moves.pinenRises _).keeps ?_ fun _ _ law m => m.flies.recordLaw law
    simp only [State.pinenUp, State.removeWaiters_told]
    exact law
  | portCleared p =>
    refine Flies.recordLaw ?_ law
    obtain ⟨cs, e⟩ := s.portCleared_frame p
    rw [e]
    refine .of_map rfl fun x _ own => ?_
    split at own <;> rename_i port <;> simp only [port, if_true, if_false, and_true] <;> exact own
  | pinenFalls | portServes | resetFalls => exact law
  | resetRises | powerFalls => exact idle _ rfl
  | unformatted powered line starting => exact idle _ (starts starting)
  | replayed r powered line starting usable =>
    obtain ⟨slot, checked⟩ := State.compactionCheck_frame { s.deriveRow.emptyClaims with
      vols := r.dir, journal := some r.journal, skipped := r.skipped, mode := .normal }
    rw [checked]
    exact idle _ (starts starting)
  | _ => exact idle _ (State.finish_engine _ _)

/-! ### Events that leave the journal as it stands -/

theorem Quiet.trans {u : State} (h : Quiet s t) (h' : Quiet t u) : Quiet s u where
  store := h'.store.trans h.store
  journal := h'.journal.trans h.journal
  mode := h'.mode.trans h.mode
  vols := h.vols.trans h'.vols
  flight g mem := by
    obtain ⟨f, mem', ⟨op, phase, own, entry, tries⟩⟩ := h'.flight g mem
    obtain ⟨e, mem'', ⟨op', phase', own', entry', tries'⟩⟩ := h.flight f mem'
    exact ⟨e, mem'', op.trans op', phase.trans phase', own.trans own', entry.trans entry', tries.trans tries'⟩

theorem Quiet.refl (s : State) : Quiet s s := .of_eq rfl rfl rfl rfl rfl

theorem Moves.quiet (ms : Moves s t) : Quiet s t := ms.keeps (P := Quiet s) (.refl s) fun _ _ h m => h.trans m.quiet

theorem State.pinenRises_quiet : Quiet s ((List.finRange 32).foldl State.revokeIfPinned s.pinenUp) := by
  refine .trans ?_ (Moves.pinenRises _).quiet
  simp only [State.pinenUp, State.removeWaiters_told]
  exact .of_eq rfl rfl rfl rfl rfl

theorem State.portCleared_quiet (p : Port) : Quiet s (s.portCleared p) := by
  obtain ⟨cs, eq⟩ := s.portCleared_frame p
  rw [eq]
  refine .of_map rfl (fun x => ?_) rfl rfl rfl rfl
  split <;> exact ⟨rfl, rfl, rfl, rfl, rfl⟩

end

end Sys2Proof.Machine
end

section
/-! Every event keeps the law of the journal (R114 to R120, R122 to R128, R133). -/

namespace Sys2Proof.Machine

section
variable {s t : State} {e : InFlight} {b : Bool} {j : Journal}

/-! ### A record of the current sector -/

theorem State.modeLaw.journal_serving (modes : s.modeLaw) (journal : s.journal = some j) : s.mode ≠ .unformatted := fun mode => by
  obtain ⟨bare, -⟩ := (State.modeLaw_iff.mp modes).2.2 mode
  rw [bare.journal] at journal
  cases journal

/-- A record that completes reaches the running part and the journal alike (R114, R124). -/
theorem State.Recorded.journalled (law : s.Recorded) (modes : s.modeLaw) (wf : s.store.wf = true) {i : JSector} {en : JEntry}
    (busy : s.engine = some e) (phase : e.phase = .journaling i) (own : e.own = none) (entry : e.entry = some en) (journal : s.journal = some j) :
    (s.journalled en j).Founded := by
  obtain ⟨j', journal', rfl, inside, means⟩ := (State.placeLaw_record phase own).mp (law.place e busy)
  obtain rfl := Option.some.inj (journal.symm.trans journal')
  obtain ⟨seq, means⟩ := means en entry
  obtain ⟨stands, follows⟩ := law.founded.current j journal
  have low := law.founded.seq_le journal
  have named : ∀ v, volIndex (recordVol en.content) = some v → recordMeans s.vols v en.content := fun v named =>
    means v (vol_of_recordFits (law.records e busy own en entry) named)
  have number : en.seq.toNat = j.seq := by
    rw [seq, BitVec.toNat_ofNat]
    rw [Config.positions] at inside
    omega
  obtain ⟨entered, read⟩ := stands.entered inside wf number
  obtain ⟨slot, checked⟩ := State.compactionCheck_frame { s with
    store := s.store.program (positionBase j.sector j.append) (entryBytes en)
    journal := some { j with append := j.append + 1, seq := j.seq + 1 }
    vols := applied en.content s.vols }
  rw [State.journalled, checked]
  refine .of_stands (dirLaw_applied law.founded.dirs named) rfl entered (Nat.succ_le_succ low) ?_ (modes.journal_serving journal)
  have dir := Rebuild.read_dir stands.ended en.content
  dsimp only
  rw [read, dir]
  exact applied_follows follows law.founded.dirs.2 named

/-- What a completion adds to its record ends sessions at most (R16 to R20, R103). -/
theorem State.Founded.entryEffect (law : s.Founded) (k : Kind) (e : InFlight) : (entryEffect k e s).Founded := by
  have vols := ((Tends.refl s).entryEffect k e).vols.follows
  obtain ⟨_, _, _, _, _, eq⟩ := entryEffect_frame k e s
  rw [eq] at vols ⊢
  exact law.quiet (.refl _) rfl vols (.inl rfl)

theorem State.Founded.clearDeleting (law : s.Founded) (e : InFlight) : (clearDeleting e s).Founded := by
  have vols := clearDeleting_follows (s := s) e
  obtain ⟨_, eq⟩ := clearDeleting_frame e s
  rw [eq] at vols ⊢
  exact law.quiet (.refl _) rfl vols (.inl rfl)

theorem State.Founded.setMapEntry (law : s.Founded) (c : Option ClaimIx) (i : Nat) (m : MapEntry) : (s.setMapEntry c i m).Founded := by
  obtain ⟨_, eq⟩ := s.setMapEntry_frame c i m
  rw [eq]
  exact law.quiet (.refl _) rfl (.refl _) (.inl rfl)

/-- Work of the array that replay does not see (R122). -/
theorem State.Founded.store (law : s.Founded) {st : Store} (same : SameReplay s.store st) : ({ s with store := st } : State).Founded :=
  law.quiet same rfl (.refl _) (.inl rfl)

/-! ### The sector of a COMPACT or a FORMAT -/

/-- An entry of a COMPACT or a FORMAT other than the last changes nothing that replay finds (R119, R133). -/
theorem OwnLaw.advances {d : Directory} {entry : Option JEntry} {tries : Nat} {i : JSector} {o : OwnSector} {st : Store} {en : JEntry}
    {item : SnapItem} {rest : List SnapItem} (own : OwnLaw st d entry tries i o) (wf : st.wf = true) (spares : spare st i)
    (under : entry = some en) (todo : o.todo = item :: rest) : SameReplay st (st.program (positionBase i o.pos) (entryBytes en)) :=
  .of_unusable ((Untouched.entry st own.inside en).judged wf (st.entry_wf i _ en wf own.inside))
    (own.advanced wf own.inside under todo).1 spares

/-- The sector that a COMPACT or a FORMAT has completed is the current one (R119, R133). -/
theorem State.Recorded.switched (law : s.Recorded) (wf : s.store.wf = true) {i : JSector} {o : OwnSector} {en : JEntry}
    (busy : s.engine = some e) (phase : e.phase = .journaling i) (own : e.own = some o) (entry : e.entry = some en)
    (fin : isSnapEnd en.content = true) {m : Mode} (mode : m ≠ .unformatted) : ({ ownSwitches i en o s with mode := m } : State).Founded := by
  obtain ⟨ownLaw, purpose⟩ := (State.placeLaw_own phase own).mp (law.place e busy)
  have inside := ownLaw.inside
  obtain ⟨usable, append, next, follows⟩ := ownLaw.switched wf inside entry fin
  have other := (Untouched.entry s.store (j := i) inside en).judged wf (s.store.entry_wf i _ en wf inside)
  have choice : chosen (s.store.program (positionBase i o.pos) (entryBytes en)) = some (i, o.epoch) := by
    rcases purpose with ⟨-, j, journal, rfl, epoch⟩ | ⟨-, unformatted, -⟩
    · have before := (law.founded.current j journal).1.usable
      rw [JSector.other_other] at other
      have still : usableAt (s.store.program (positionBase j.sector.other o.pos) (entryBytes en)) j.sector = some j.epoch := by
        rw [usableAt, other]
        exact before
      rw [epoch] at usable ⊢
      exact chosen_next still usable
    · have none := replay_none.mp (law.founded.unformatted unformatted) i.other
      refine chosen_alone usable ?_
      rw [usableAt, other]
      exact none
  refine .of_stands (j := { sector := i, epoch := o.epoch, append := o.pos + 1, seq := o.seq + 1 }) law.founded.dirs rfl ⟨choice, append, next⟩
    (Nat.succ_le_succ ownLaw.seq) follows mode

/-! ### Each event -/

theorem Event.founded (h : Event s b t) (wf : s.store.wf = true) (modes : s.modeLaw) (law : s.Recorded) : t.Founded := by
  have founded := law.founded
  have serving {e : InFlight} (busy : s.engine = some e) (kind : e.op.kind ≠ .format ∧ e.op.kind ≠ .provision) : s.journal.isSome = true := by
    rcases (modes.busy busy).2 with mode | ⟨-, -, -, format | provision⟩
    · exact founded.serving mode
    · exact absurd format kind.1
    · exact absurd provision kind.2
  have erases {e : InFlight} {n : Nat} (busy : s.engine = some e) (phase : e.phase = .erasing n) :=
    ((State.placeLaw_erasing phase).mp (law.place e busy)).2.same founded wf
  have degrade {u : State} (founded : u.Founded) (there : u.journal.isSome = true) : ({ u with mode := .degraded } : State).Founded :=
    founded.quiet (.refl _) rfl (.refl _) (.inr ⟨rfl, there⟩)
  cases h with
  | finished st body => exact founded.finish st body
  | eraseEnds e n i m store st body busy kind phase inside worked =>
    refine ((founded.store ?_).setMapEntry _ _ _).finish st body
    rcases worked with erased | spoiled
    · rw [erased]
      exact (erases busy phase).1
    · rw [spoiled]
      exact (erases busy phase).2
  | programEnds e n pg i m store st body busy kind phase inside worked =>
    obtain ⟨-, first, second, page, data⟩ := (State.placeLaw_programming phase).mp (law.place e busy)
    refine ((founded.store ?_).setMapEntry _ _ _).finish st body
    rcases worked with rfl | rfl
    · exact .of_untouched wf (s.store.program_wf _ _ wf inside) fun i => .programPage _ (ne_jsectorNumber ⟨first, second⟩ i) page data
    · exact .of_untouched wf (s.store.spoilPage_wf wf _ _) fun i => .spoilPage _ (ne_jsectorNumber ⟨first, second⟩ i) page
  | verified e v x sl len crc u busy kind phase staged length begins =>
    obtain ⟨j, -, -, rfl⟩ := beginRecord_runs begins
    exact founded.quiet (.refl _) rfl (.refl _) (.inl rfl)
  | entry k e en j st body under inside =>
    obtain ⟨busy, -, journal, own, entry, i, phase⟩ := State.recordUnder_some under
    exact ((law.journalled modes wf busy phase own entry journal).entryEffect k e).finish st body
  | retried e i j busy phase own journal tries inside =>
    exact founded.passed wf journal (Nat.lt_of_succ_lt inside) rfl rfl rfl (modes.journal_serving journal)
  | lost e i j busy phase own journal inside =>
    refine (State.Founded.clearDeleting ?_ e).finish .arrayFault []
    exact founded.passed wf journal inside rfl rfl rfl nofun
  | beginLost e busy kind st body =>
    exact (degrade founded (serving busy (by rw [kind]; decide))).finish st body
  | ownRetried e i o busy phase own =>
    obtain ⟨ownLaw, purpose⟩ := (State.placeLaw_own phase own).mp (law.place e busy)
    refine State.Founded.quiet founded (?_ : SameReplay s.store (s.store.spoilPosition i o.pos)) rfl (.refl _) (.inl rfl)
    exact ownLaw.same wf (purpose.spare founded)
  | ownLost e i o m st body busy phase own inside mode =>
    obtain ⟨ownLaw, purpose⟩ := (State.placeLaw_own phase own).mp (law.place e busy)
    refine State.Founded.finish (s := { s.ownPassedOver i o with mode := m }) ?_ st body
    refine founded.quiet (ownLaw.same wf (purpose.spare founded)) rfl (.refl _) ?_
    split at mode
    · rename_i kind
      exact .inr ⟨mode, serving busy (by rw [kind]; decide)⟩
    · exact .inl mode
  | compactErased e j n busy kind journal phase => exact founded.quiet (erases busy phase).1 rfl (.refl _) (.inl rfl)
  | compactEraseFails e n st body busy kind phase =>
    refine State.Founded.finish (s := { s with store := s.store.spoilSector n, mode := .degraded }) ?_ st body
    refine founded.quiet ?_ rfl (.refl _) (.inr ⟨rfl, serving busy (by rw [kind]; decide)⟩)
    dsimp only
    exact (erases busy phase).2
  | ownAdvances e i en o item rest busy kind phase entry own todo inside =>
    obtain ⟨ownLaw, purpose⟩ := (State.placeLaw_own phase own).mp (law.place e busy)
    exact founded.quiet (ownLaw.advances wf (purpose.spare founded) entry todo) rfl (.refl _) (.inl rfl)
  | switched e i en o m st body busy kind phase entry own fin inside =>
    refine (law.switched wf busy phase own entry fin ?_).finish st body
    rcases kind with ⟨kind, rfl⟩ | ⟨-, rfl⟩
    · rcases (modes.busy busy).2 with mode | ⟨-, -, -, format | provision⟩
      · rcases mode with mode | mode <;> rw [mode] <;> decide
      · rw [kind] at format
        cases format
      · rw [kind] at provision
        cases provision
    · decide
  | formatErased e n busy kind phase =>
    unfold Machine.formatErased
    dsimp only
    split
    · exact founded.quiet (erases busy phase).1 rfl (.refl _) (.inl rfl)
    · exact founded.quiet (erases busy phase).1 rfl (.refl _) (.inl rfl)
  | formatEraseFails e n st body busy kind phase => exact (founded.store (erases busy phase).2).finish st body
  | rowWritten e r pv st body =>
    refine State.Founded.finish (s := s.setRow r pv) ?_ st body
    exact founded.quiet (.refl _) rfl (.refl _) (.inl rfl)
  | pinenRises => exact State.pinenRises_quiet.founded founded
  | portCleared p => exact (State.portCleared_quiet p).founded founded
  | pinenFalls | portServes | resetFalls =>
    refine Quiet.founded (s := s) ?_ founded
    exact .of_eq rfl rfl rfl rfl rfl
  | resetRises cut | powerFalls cut => exact .of_empty (State.abort_found founded law.place wf cut) rfl rfl (.inl rfl)
  | unformatted powered line starting unusable => exact .of_empty founded.found rfl rfl (.inr ⟨rfl, unusable⟩)
  | replayed r powered line starting usable =>
    obtain ⟨seq, dirs⟩ := founded.found r usable
    obtain ⟨slot, checked⟩ := State.compactionCheck_frame { s.deriveRow.emptyClaims with
      vols := r.dir, journal := some r.journal, skipped := r.skipped, mode := .normal }
    rw [checked]
    have stands := stands_iff.mpr ⟨r, usable, rfl⟩
    have dir : r.dir = endReplay (rebuild (judged s.store r.journal.sector)).dir :=
      (congrArg Replayed.dir (Option.some.inj (usable.symm.trans stands.replay))).trans (replayOf_dir _ _ _)
    refine .of_stands dirs rfl stands seq ?_ nofun
    dsimp only
    rw [dir]
    exact endReplay_follows_self _

/-! ### The work under way after each event -/

theorem all_blank {ps : List (Option (Option JEntry))} : ps.all Option.isNone = true ↔ ps = List.replicate ps.length none := by
  rw [List.eq_replicate_iff, List.all_eq_true]
  simp only [Option.isNone_iff_eq_none, true_and]

theorem nextEpoch_range {epoch : Nat} (le : epoch ≤ 4294967295) : 1 ≤ nextEpoch epoch ∧ nextEpoch epoch ≤ 4294967295 := by
  rw [nextEpoch, Config.wordMax]
  split <;> omega

/-- An operation in flight that a COMPACT or a FORMAT has taken to its own sector (R117, R133). -/
theorem State.beginOwn_placeLaw {u : State} {i : JSector} {epoch : Nat} (busy : u.engine = some e)
    (purpose : u.ownPurpose e.op.kind i epoch) (blank : judged u.store i = List.replicate 2048 none)
    (kept : ∀ v : Vol, ∀ x ∈ u.vols[v], x.kept) (range : 1 ≤ epoch ∧ epoch ≤ 4294967295) :
    ∀ f ∈ (u.beginOwn i epoch (snapshotItems u.vols)).engine, (u.beginOwn i epoch (snapshotItems u.vols)).placeLaw f := fun f mem => by
  obtain ⟨e', flight, rfl⟩ := Option.map_eq_some_iff.mp mem
  obtain rfl := Option.some.inj (busy.symm.trans flight)
  exact (State.placeLaw_own rfl rfl).mpr ⟨.begun blank kept range.1 range.2, purpose⟩

theorem Event.placed (h : Event s b t) (wf : s.store.wf = true) (modes : s.modeLaw) (law : s.Recorded) : ∀ f ∈ t.engine, t.placeLaw f := by
  have starts : s.mode = .starting → s.engine = none := fun starting => ((State.modeLaw_iff.mp modes).2.1 starting).2.engine
  have idle (u : State) (none : u.engine = none) : ∀ f ∈ u.engine, u.placeLaw f := fun e mem => by rw [none] at mem; cases mem
  have holds := h.holdsFlight modes law.unique
  have still (quiet : Quiet s t) := quiet.placeLaw holds law.founded.dirs.2 law.bind law.records law.place
  cases h with
  | verified e v x sl len crc u busy kind phase staged length begins =>
    obtain ⟨j, journal, inside, rfl⟩ := beginRecord_runs begins
    obtain ⟨vol, used, staging⟩ := State.stagedBy_some staged
    refine State.begun_placeLaw journal inside (fun f flight => ?_) fun f flight w named y used' sm slot => ?_
    · obtain rfl := Option.some.inj (busy.symm.trans flight)
      exact (State.placeLaw_still (.inr (.inl phase))).mp (law.place e busy)
    · obtain rfl := Option.some.inj (busy.symm.trans flight)
      obtain rfl := Option.some.inj (vol.symm.trans named)
      obtain rfl := Option.some.inj (used.symm.trans used')
      obtain rfl := Option.some.inj ((slotOfCode_slotCode sl).symm.trans slot)
      exact Volume.slotIn_some staging
  | retried e i j busy phase own journal tries inside =>
    intro f mem
    obtain ⟨e', flight, rfl⟩ := Option.map_eq_some_iff.mp mem
    obtain rfl := Option.some.inj (busy.symm.trans flight)
    obtain ⟨j', journal', sector, -, means⟩ := (State.placeLaw_record phase own).mp (law.place e busy)
    obtain rfl := Option.some.inj (journal.symm.trans journal')
    exact (State.placeLaw_record (by exact phase) (by exact own)).mpr ⟨{ j with append := j.append + 1 }, rfl, sector, inside, means⟩
  | ownRetried e i o busy phase own tries inside =>
    intro f mem
    obtain ⟨e', flight, rfl⟩ := Option.map_eq_some_iff.mp mem
    obtain rfl := Option.some.inj (busy.symm.trans flight)
    obtain ⟨ownLaw, purpose⟩ := (State.placeLaw_own phase own).mp (law.place e busy)
    exact (State.placeLaw_own (by exact phase) rfl).mpr ⟨ownLaw.passed wf ownLaw.inside tries, purpose⟩
  | compactErased e j n busy kind journal phase =>
    obtain ⟨-, may⟩ := (State.placeLaw_erasing phase).mp (law.place e busy)
    have sector : n = jsectorNumber j.sector.other := by
      rcases may with ⟨-, j', journal', sector⟩ | ⟨other, -⟩ | ⟨other, -⟩
      · obtain rfl := Option.some.inj (journal.symm.trans journal')
        exact sector
      · rw [kind] at other
        cases other
      · rw [kind] at other
        cases other
    subst sector
    exact State.beginOwn_placeLaw (u := { s with store := s.store.eraseSector (jsectorNumber j.sector.other) }) busy
      (.inl ⟨kind, j, journal, rfl, rfl⟩) (judged_eraseSector s.store wf _) law.founded.dirs.2
      (nextEpoch_range (law.founded.current j journal).1.epoch_le)
  | ownAdvances e i en o item rest busy kind phase entry own todo inside =>
    intro f mem
    obtain ⟨e', flight, rfl⟩ := Option.map_eq_some_iff.mp mem
    obtain rfl := Option.some.inj (busy.symm.trans flight)
    obtain ⟨ownLaw, purpose⟩ := (State.placeLaw_own phase own).mp (law.place e busy)
    exact (State.placeLaw_own (by exact phase) rfl).mpr ⟨(ownLaw.advanced wf ownLaw.inside entry todo).2, purpose⟩
  | formatErased e n busy kind phase =>
    obtain ⟨own, may⟩ := (State.placeLaw_erasing phase).mp (law.place e busy)
    rcases may with ⟨other, -⟩ | ⟨-, mode, sector⟩ | ⟨other, -⟩
    · rw [kind] at other
      cases other
    · unfold Machine.formatErased
      dsimp only
      split
      · rename_i first
        subst first
        intro f mem
        obtain ⟨e', flight, rfl⟩ := Option.map_eq_some_iff.mp mem
        obtain rfl := Option.some.inj (busy.symm.trans flight)
        refine (State.placeLaw_erasing rfl).mpr ⟨own, .inr (.inl ⟨kind, mode, .inr ⟨jsectorNumber_j1, ?_⟩⟩)⟩
        have blank := judged_eraseSector s.store wf .j0
        change (judged (s.store.eraseSector (jsectorNumber .j0)) .j0).all Option.isNone = true
        rw [blank]
        exact all_blank.mpr (by rw [List.length_replicate])
      · rename_i second
        obtain ⟨rfl, blank⟩ : n = jsectorNumber .j1 ∧ (judged s.store .j0).all Option.isNone = true :=
          sector.resolve_left fun first => second first
        rw [all_blank, judged_length] at blank
        obtain ⟨bare, -⟩ := (State.modeLaw_iff.mp modes).2.2 mode
        have here := (Untouched.eraseSector s.store (jsectorNumber_other .j1)).judged wf (s.store.eraseSector_wf _ wf)
        have items : [SnapItem.fin] = snapshotItems s.vols := by rw [bare.vols, snapshotItems_empty]
        rw [items]
        exact State.beginOwn_placeLaw (u := { s with store := s.store.eraseSector (jsectorNumber .j1), skipped := 0 }) (i := .j0) busy
          (.inr ⟨kind, mode, rfl⟩) (here.trans blank) law.founded.dirs.2 ⟨Nat.le_refl _, by decide⟩
    · rw [kind] at other
      cases other
  | pinenRises => exact still State.pinenRises_quiet
  | portCleared p => exact still (State.portCleared_quiet p)
  | pinenFalls | portServes | resetFalls => exact still (.of_eq rfl rfl rfl rfl rfl)
  | resetRises | powerFalls => exact idle _ rfl
  | unformatted powered line starting => exact idle _ (starts starting)
  | replayed r powered line starting usable =>
    obtain ⟨slot, checked⟩ := State.compactionCheck_frame { s.deriveRow.emptyClaims with
      vols := r.dir, journal := some r.journal, skipped := r.skipped, mode := .normal }
    rw [checked]
    exact idle _ (starts starting)
  | _ => exact idle _ (State.finish_engine _ _)

end

end Sys2Proof.Machine
end

section
/-! Every command keeps the law of the journal (R112, R122 to R125, R128). -/

namespace Sys2Proof.Machine

section
variable {s t : State} {b : Bool}

theorem Event.recorded (h : Event s b t) (wf : s.store.wf = true) (modes : s.modeLaw) (law : s.Recorded) : t.Recorded where
  unique := h.uniqueLaw law.unique
  records := h.recordLaw modes law.records
  founded := h.founded wf modes law
  place := h.placed wf modes law
  bind := law.bind.step (h.holdsQueue modes) (h.holdsFlight modes law.unique)

theorem Reaches.recorded (h : Reaches s b t) (wf : s.store.wf = true) (modes : s.modeLaw) (law : s.Recorded) : t.Recorded :=
  (h.keeps (P := fun t => t.modeLaw ∧ t.Recorded) ⟨modes, law⟩ (fun _ _ e => ⟨e.modeLaw modes, e.recorded wf modes law⟩)
    (fun _ _ ⟨modes, law⟩ m => ⟨m.modeLaw modes, m.recorded law⟩) (fun _ _ ⟨modes, law⟩ a => ⟨a.modeLaw modes, a.recorded law⟩)
    (fun _ _ ⟨modes, law⟩ q => ⟨q.modeLaw modes, q.recorded law⟩)
    (fun _ _ ⟨modes, law⟩ w => ⟨w.modeLaw modes, w.recorded modes law⟩)).2

/-- A power-on changes what undefined content reads as, and not what replay makes of it (R2, R122). -/
theorem State.poweredOn_journalLaw (wf : s.store.wf = true) (law : s.Recorded) : s.poweredOn.journalLaw := by
  have found := State.abort_found law.founded law.place wf .during
  have wf' := s.abort_store_wf .during wf
  have found' : foundLaw (s.abort .during).store.powerOn := found.same (.of_judged fun _ => judged_powerOn _ wf')
  refine State.journalLaw_iff.mpr ⟨.of_empty found' rfl rfl (.inl rfl), fun e mem => ?_, law.bind.step (.of_empty rfl) (.of_idle rfl)⟩
  cases mem

end

/-- Settles O49: replay as `replay_chooses` and `rebuildStep_after` describe it, and the law of the journal kept by every event and
pick. -/
theorem replayChoosesAndEndsSessions : Obligations.ReplayChoosesAndEndsSessions := by
  refine ⟨replay_chooses, rebuildStep_after, fun c s t wf modes unique records journal next => ?_⟩
  obtain ⟨founded, place, bind⟩ := State.journalLaw_iff.mp journal
  have law : s.Recorded := ⟨unique, records, founded, place, bind⟩
  refine exec_keeps next (State.poweredOn_journalLaw wf law) fun reaches => ?_
  have after := reaches.recorded wf modes law
  exact State.journalLaw_iff.mpr ⟨after.founded, after.place, after.bind⟩

end Sys2Proof.Machine
end
